-- ==== Sys2Proof/Word.lean ====
section
/-! DEFINITION. The value types of the spec (00_scope.md R8): bus words, half-words, bytes, pixels, and the three
enumerations the block's registers hold (10_state.md R22, R39, R40). Their bit codes stand in Decode.lean. -/
namespace Sys2Proof

/-- `Word32` (R8): one port word. -/
abbrev Word := BitVec 32

/-- `Half16` (R8): a coefficient, or half of a port word. -/
abbrev Half := BitVec 16

/-- `Byte8` (R8): a quantisation-table entry, or one byte lane of a bus access. -/
abbrev Byte := BitVec 8

/-- `Pixel` (R8, R170): byte 0 red or intensity, byte 1 green, byte 2 blue. -/
abbrev Pixel := BitVec 24

/-- The four output depths, in the order of their 2-bit codes 0, 1, 2, 3 (R40). -/
inductive Depth where
  | bits4 | bits8 | bits24 | bits15
  deriving DecidableEq, Repr, Inhabited

/-- The six blocks of a macroblock, in the order of their codes 0 to 5 (R39). Codes 6 and 7 name no block. -/
inductive Block where
  | y1 | y2 | y3 | y4 | cr | cb
  deriving DecidableEq, Repr, Inhabited

/-- The command being served (R22). -/
inductive Command where
  | none | decodeMacroblock | setQuantTable | setIdct
  deriving DecidableEq, Repr, Inhabited

end Sys2Proof
end

