-- ==== Sys2Proof/Config.lean ====
section
/-! DEFINITION. The parameters of 00_scope.md R5, and the free values: the Decode Engine where the spec leaves it
open (42_decode_step.md R150), the pixels a tail read draws (43_output_packer.md R170, R178), and an open `PACK15`. -/
namespace Sys2Proof

/-- `ENGINE.EState` (R28, R150): a code of the engine's private state, the block buffers included.
DESIGN CHOICE (log 6): the type is open in the spec; here its states are numbered. -/
abbrev EState := Nat

/-- `ENGINE.engineInit` (R150). DESIGN CHOICE (log 6): the numbering starts at the initial state. -/
def engineInit : EState := 0

/-- The Table Store (R12, R24): the luma and chroma quantisation tables and the coefficient table. -/
structure Tables where
  lumaQ   : Vector Byte 64
  chromaQ : Vector Byte 64
  idct    : Vector Half 64
  deriving DecidableEq, Repr

/-- `QUANT_BYTE_ORDER` (R5, R64). -/
inductive ByteOrder where
  | msbFirst | lsbFirst
  deriving DecidableEq, Repr

/-- `IDCT_HALF_ORDER` (R5, R64). -/
inductive HalfOrder where
  | lowFirst | highFirst
  deriving DecidableEq, Repr

/-- `PACK15` (R5): the conversion of R174, or any other one (`unspecified`: an unknown function of the pixel). -/
inductive Pack15 where
  | rgb555 | unspecified
  deriving DecidableEq, Repr

/-- `ENGINE` (R5, R150): an unknown engine that meets the contract, or the spec's test engine `T_n`
(95_test_vectors.md section 0), which can be run. -/
inductive Engine where
  | unspecified
  | test (n : Nat)
  deriving DecidableEq, Repr

/-- The implementation parameters of R5. They are fixed for a machine: no step writes them. They stand in the
state, so that a claim over every state is a claim over every value of them (log 4). -/
structure Params where
  mdecBase       : Nat
  inFifoDepth    : Nat
  mbPixelsColor  : Nat
  mbPixelsMono   : Nat
  monoStartBlock : Block
  quantByteOrder : ByteOrder
  idctHalfOrder  : HalfOrder
  engine         : Engine
  pack15         : Pack15
  initTables     : Tables
  deriving DecidableEq, Repr

/-- The one restriction R5 puts on the parameters: `IN_FIFO_DEPTH` is at least 1. -/
abbrev Params.Valid (p : Params) : Prop := 1 ≤ p.inFifoDepth

/-- Tables of zeros, the reference simulator's `INIT_TABLES` (R5, R233). -/
def Tables.zero : Tables :=
  { lumaQ := Vector.replicate 64 0, chromaQ := Vector.replicate 64 0, idct := Vector.replicate 64 0 }

/-- The defaults of R5. Where R5 says OPEN: the base is the console's (PRESUMED, log 4), the tables are zero
(DESIGN CHOICE, log 5), and the engine stays unknown. -/
def Params.default : Params :=
  { mdecBase := 0x1F801820, inFifoDepth := 32, mbPixelsColor := 256, mbPixelsMono := 64,
    monoStartBlock := .y1, quantByteOrder := .msbFirst, idctHalfOrder := .lowFirst,
    engine := .unspecified, pack15 := .rgb555, initTables := .zero }

/-- What the open engine may read at one call (R150): its own state, the queue word as the two half-words of its
input stream in their order (R152), the depth, the signed flag (clause 5) and the Table Store. -/
structure EngineInput where
  estate     : EState
  firstHalf  : Half
  secondHalf : Half
  depth      : Depth
  isSigned   : Bool
  tables     : Tables
  deriving DecidableEq, Repr

/-- FREE VALUE (log 6): the open engine's next state. -/
opaque Config.engineNext : EngineInput → EState

/-- FREE VALUE (log 6): whether the open engine completes a macroblock with this word. -/
opaque Config.engineCompletes : EngineInput → Bool

/-- FREE VALUE (log 6): the pixels of the macroblock the open engine completes, by index. -/
opaque Config.enginePixel : EngineInput → Nat → Pixel

/-- FREE VALUE (log 6): the block code the open engine returns (R150 clause 3). -/
opaque Config.engineBlock : EngineInput → Block

/-- FREE VALUE (log 9): the pixel `draw(Pixel)` gives at a read's draw number and a cursor index past the end of
the buffer (R170, R178). -/
opaque Config.freePixel : Nat → Nat → Pixel

/-- FREE VALUE (log 8): a `PACK15` other than the default of R174. -/
opaque Config.openPack15 : Pixel → BitVec 15

end Sys2Proof
end

