-- ==== Sys2Proof/Syntax.lean ====
section
/-! DEFINITION. The operations the host applies to the block (00_scope.md R4, 20_memory.md R61), and the block's
instructions: one constructor per row of spec/opcode_table.json (30_encoding.md R94), with every field of its
format as an operand, the ignored bits among them. -/
namespace Sys2Proof

/-- The operand `k` of a decode step (R154): how many queue words it may consume. -/
inductive TickBudget where
  | atMost (k : Nat)
  | unbounded
  deriving DecidableEq, Repr

/-- One operation of the host (R4). A bus access names its byte offset in the block's window and its byte lanes;
its width in bits is 8 times their number (R61, R63). -/
inductive HostOp where
  /-- a bus write: the bytes in address order -/
  | busWrite (off : Nat) (bytes : List Byte)
  /-- a bus read of so many bytes -/
  | busRead (off : Nat) (nbytes : Nat)
  /-- the scheduler's decode step (R106) -/
  | tick (k : TickBudget)
  deriving DecidableEq, Repr

/-- The instructions: the 17 rows of spec/opcode_table.json, in its order. -/
inductive Instr where
  /-- DECODE_MB (R82, R121) -/
  | decodeMb (depth : Depth) (sgn b15 : Bool) (ignored : BitVec 9) (count : BitVec 16)
  /-- SET_QUANT (R83, R122) -/
  | setQuant (ignored : BitVec 28) (color : Bool)
  /-- SET_IDCT (R84, R123) -/
  | setIdct (ignored : BitVec 29)
  /-- NOP_CMD_0 (R85, R124) -/
  | nopCmd0 (ignored : BitVec 29)
  /-- NOP_CMD_4 (R85, R124) -/
  | nopCmd4 (ignored : BitVec 29)
  /-- NOP_CMD_5 (R85, R124) -/
  | nopCmd5 (ignored : BitVec 29)
  /-- NOP_CMD_6 (R85, R124) -/
  | nopCmd6 (ignored : BitVec 29)
  /-- NOP_CMD_7 (R85, R124) -/
  | nopCmd7 (ignored : BitVec 29)
  /-- PARAM_DATA (R88 PDATA, R126) -/
  | paramData (w : Word)
  /-- PARAM_QUANT (R88 PQUANT, R127) -/
  | paramQuant (w : Word)
  /-- PARAM_IDCT (R88 PIDCT, R128) -/
  | paramIdct (w : Word)
  /-- PARAM_NONE (R88 PNONE, R129) -/
  | paramNone (w : Word)
  /-- WR_DATA (R100): a data-port write, not yet classified -/
  | wrData (w : Word)
  /-- RD_DATA (R101) -/
  | rdData
  /-- WR_CTRL (R38, R102) -/
  | wrCtrl (reset enIn enOut : Bool) (ignored : BitVec 29)
  /-- RD_STATUS (R103) -/
  | rdStatus
  /-- TICK (R154) -/
  | tick (k : TickBudget)
  deriving DecidableEq, Repr

/-- The pseudo-instructions of the spec's program spelling (R93). -/
inductive Pseudo where
  | reset (enIn enOut : Bool)
  | ctrl (enIn enOut : Bool)
  | decode (depth : Depth) (sgn b15 : Bool) (n : BitVec 16)
  | quant (color : Bool)
  | idct
  | nopCmd
  deriving DecidableEq, Repr

end Sys2Proof
end

