-- ==== Sys2Proof/WellFormed.lean ====
section
/-! DEFINITION. What the spec asks of an instruction beyond the widths of its fields: a decode step consumes at
least one word (42_decode_step.md R154: `k >= 1` or `k = infinity`). Every value of every other field is legal
(30_encoding.md R90, R91). -/
namespace Sys2Proof

/-- `k >= 1` or `k = infinity` (R154, R155). -/
def TickBudget.wellFormed : TickBudget → Bool
  | .atMost k => decide (1 ≤ k)
  | .unbounded => true

/-- The well-formed instructions. -/
def Instr.wellFormed : Instr → Bool
  | .tick k => k.wellFormed
  | .decodeMb _ _ _ _ _ => true
  | .setQuant _ _ => true
  | .setIdct _ => true
  | .nopCmd0 _ => true
  | .nopCmd4 _ => true
  | .nopCmd5 _ => true
  | .nopCmd6 _ => true
  | .nopCmd7 _ => true
  | .paramData _ => true
  | .paramQuant _ => true
  | .paramIdct _ => true
  | .paramNone _ => true
  | .wrData _ => true
  | .rdData => true
  | .wrCtrl _ _ _ _ => true
  | .rdStatus => true

end Sys2Proof
end

