-- ==== Sys2Proof/Decode.lean ====
section
/-! DEFINITION. From the host's operations to instructions and back (30_encoding.md): the codes of R39 and R40, the
fields of a word, the classification modes of R86, the decoder, the encoder, stream lengths (R87) and the
pseudo-instructions (R93). -/
namespace Sys2Proof

/-! ## Codes -/

/-- The depth codes (R40). -/
def Depth.code : Depth → BitVec 2
  | .bits4 => 0
  | .bits8 => 1
  | .bits24 => 2
  | .bits15 => 3

/-- The depth a 2-bit code names (R40). -/
def Depth.ofCode (c : BitVec 2) : Depth :=
  if c = 0 then .bits4 else if c = 1 then .bits8 else if c = 2 then .bits24 else .bits15

/-- The monochrome depths, codes 0 and 1 (R12, R40). -/
def Depth.isMono : Depth → Bool
  | .bits4 => true
  | .bits8 => true
  | .bits24 => false
  | .bits15 => false

/-- The block codes (R39). -/
def Block.code : Block → BitVec 3
  | .y1 => 0
  | .y2 => 1
  | .y3 => 2
  | .y4 => 3
  | .cr => 4
  | .cb => 5

/-! ## Fields and byte lanes of a word -/

/-- `w[k]` (R6). -/
def bitOf (w : Word) (k : Nat) : Bool := w.getLsbD k

/-- Byte `k` of a word, `w[8k+7:8k]` (R6). -/
def byteOf (w : Word) (k : Nat) : Byte := w.extractLsb' (8 * k) 8

/-- The low half `w[15:0]` (R6). -/
def lowHalf (w : Word) : Half := w.extractLsb' 0 16

/-- The high half `w[31:16]` (R6). -/
def highHalf (w : Word) : Half := w.extractLsb' 16 16

/-- The bytes of a port word in address order: byte `k` at `base + k` (R63). -/
def bytesOfWord (w : Word) : List Byte := [byteOf w 0, byteOf w 1, byteOf w 2, byteOf w 3]

/-- The port word whose bytes in address order are these (R63). -/
def wordOfBytes (b0 b1 b2 b3 : Byte) : Word := b3 ++ b2 ++ b1 ++ b0

/-- The 3-bit opcode `w[31:29]` of a command word (R81). -/
def opcode (w : Word) : BitVec 3 := w.extractLsb' 29 3

/-- The depth field `w[28:27]` of a DecodeMacroblock word (R82, R89). -/
def depthField (w : Word) : Depth := Depth.ofCode (w.extractLsb' 27 2)

/-- The count field `w[15:0]` of a DecodeMacroblock word (R82, R89). -/
def countField (w : Word) : BitVec 16 := lowHalf w

/-! ## Decoding -/

/-- How a data-port write is read (R86): unclassified, as a command word, or as a parameter word of a command. -/
inductive Mode where
  | port
  | command
  | param (c : Command)
  deriving DecidableEq, Repr

/-- Why an operation is no instruction. -/
inductive Reject where
  /-- the access is not admitted (R61) -/
  | badAccess
  /-- a decode step of no words (R154) -/
  | zeroTick
  deriving DecidableEq, Repr

/-- The command-word decoder, total over all 2^32 values (R81 to R85, R94). -/
def decodeCommand (w : Word) : Instr :=
  let rest : BitVec 29 := w.extractLsb' 0 29
  if opcode w = 1 then .decodeMb (depthField w) (bitOf w 26) (bitOf w 25) (w.extractLsb' 16 9) (countField w)
  else if opcode w = 2 then .setQuant (w.extractLsb' 1 28) (bitOf w 0)
  else if opcode w = 3 then .setIdct rest
  else if opcode w = 0 then .nopCmd0 rest
  else if opcode w = 4 then .nopCmd4 rest
  else if opcode w = 5 then .nopCmd5 rest
  else if opcode w = 6 then .nopCmd6 rest
  else .nopCmd7 rest

/-- The parameter-word formats, by the recorded command (R88). -/
def decodeParam (c : Command) (w : Word) : Instr :=
  match c with
  | .decodeMacroblock => .paramData w
  | .setQuantTable => .paramQuant w
  | .setIdct => .paramIdct w
  | .none => .paramNone w

/-- A data-port write of the word `w` (R86, R100). -/
def decodeDataWrite (m : Mode) (w : Word) : Instr :=
  match m with
  | .port => .wrData w
  | .command => decodeCommand w
  | .param c => decodeParam c w

/-- A control-port write of the word `w` (R38). -/
def decodeControl (w : Word) : Instr :=
  .wrCtrl (bitOf w 31) (bitOf w 30) (bitOf w 29) (w.extractLsb' 0 29)

/-- The decoder, total over the host's operations: only 32-bit accesses at offsets 0 and 4 are admitted (R61), and
a decode step takes `k >= 1` words (R154). -/
def decode (m : Mode) : HostOp → Except Reject Instr
  | .busWrite off bytes =>
    match bytes with
    | [b0, b1, b2, b3] =>
      if off = 0 then .ok (decodeDataWrite m (wordOfBytes b0 b1 b2 b3))
      else if off = 4 then .ok (decodeControl (wordOfBytes b0 b1 b2 b3))
      else .error .badAccess
    | _ => .error .badAccess
  | .busRead off nbytes =>
    if nbytes = 4 then
      if off = 0 then .ok .rdData
      else if off = 4 then .ok .rdStatus
      else .error .badAccess
    else .error .badAccess
  | .tick k => if k.wellFormed then .ok (.tick k) else .error .zeroTick

/-! ## Encoding -/

/-- The 32-bit write of a word at an offset (R92: `W0`, `W4`). -/
def portWrite (off : Nat) (w : Word) : HostOp := .busWrite off (bytesOfWord w)

/-- The DecodeMacroblock word, field by field (R82). -/
def decodeMbWord (depth : Depth) (sgn b15 : Bool) (ignored : BitVec 9) (count : BitVec 16) : Word :=
  (1 : BitVec 3) ++ depth.code ++ BitVec.ofBool sgn ++ BitVec.ofBool b15 ++ ignored ++ count

/-- The SetQuantTable word (R83). -/
def setQuantWord (ignored : BitVec 28) (color : Bool) : Word :=
  (2 : BitVec 3) ++ ignored ++ BitVec.ofBool color

/-- A command word whose bits 28:0 are ignored (R84, R85). -/
def plainCommandWord (op : BitVec 3) (ignored : BitVec 29) : Word := op ++ ignored

/-- The Control word (R38). -/
def controlWord (reset enIn enOut : Bool) (ignored : BitVec 29) : Word :=
  BitVec.ofBool reset ++ BitVec.ofBool enIn ++ BitVec.ofBool enOut ++ ignored

/-- The operation that carries an instruction. -/
def encode : Instr → HostOp
  | .decodeMb d sgn b15 ig n => portWrite 0 (decodeMbWord d sgn b15 ig n)
  | .setQuant ig c => portWrite 0 (setQuantWord ig c)
  | .setIdct ig => portWrite 0 (plainCommandWord 3 ig)
  | .nopCmd0 ig => portWrite 0 (plainCommandWord 0 ig)
  | .nopCmd4 ig => portWrite 0 (plainCommandWord 4 ig)
  | .nopCmd5 ig => portWrite 0 (plainCommandWord 5 ig)
  | .nopCmd6 ig => portWrite 0 (plainCommandWord 6 ig)
  | .nopCmd7 ig => portWrite 0 (plainCommandWord 7 ig)
  | .paramData w => portWrite 0 w
  | .paramQuant w => portWrite 0 w
  | .paramIdct w => portWrite 0 w
  | .paramNone w => portWrite 0 w
  | .wrData w => portWrite 0 w
  | .rdData => .busRead 0 4
  | .wrCtrl r i o ig => portWrite 4 (controlWord r i o ig)
  | .rdStatus => .busRead 4 4
  | .tick k => .tick k

/-- The mode in which an instruction's operation is read as that instruction (the `condition` column of the opcode
table). An operation other than a data-port write is read the same way in every mode. -/
def Instr.mode : Instr → Mode
  | .decodeMb _ _ _ _ _ => .command
  | .setQuant _ _ => .command
  | .setIdct _ => .command
  | .nopCmd0 _ => .command
  | .nopCmd4 _ => .command
  | .nopCmd5 _ => .command
  | .nopCmd6 _ => .command
  | .nopCmd7 _ => .command
  | .paramData _ => .param .decodeMacroblock
  | .paramQuant _ => .param .setQuantTable
  | .paramIdct _ => .param .setIdct
  | .paramNone _ => .param .none
  | .wrData _ => .port
  | .rdData => .port
  | .wrCtrl _ _ _ _ => .port
  | .rdStatus => .port
  | .tick _ => .port

/-! ## Streams and pseudo-instructions -/

/-- How many words the stream a command word opens has, the command word included (R87). -/
def streamLength (w : Word) : Nat :=
  match decodeCommand w with
  | .decodeMb _ _ _ _ count => 1 + count.toNat
  | .setQuant _ color => if color then 1 + 32 else 1 + 16
  | .setIdct _ => 1 + 32
  | _ => 1

/-- A bit as a 32-bit value, `zext_32` (R6). -/
def zextBit (b : Bool) : Word := (BitVec.ofBool b).setWidth 32

/-- The one write each pseudo-instruction stands for (R93). -/
def Pseudo.expand : Pseudo → HostOp
  | .reset i o => portWrite 4 (0x80000000 ||| zextBit i <<< 30 ||| zextBit o <<< 29)
  | .ctrl i o => portWrite 4 (zextBit i <<< 30 ||| zextBit o <<< 29)
  | .decode d sgn b15 n =>
    portWrite 0 (0x20000000 ||| d.code.setWidth 32 <<< 27 ||| zextBit sgn <<< 26 ||| zextBit b15 <<< 25 |||
      n.setWidth 32)
  | .quant c => portWrite 0 (0x40000000 ||| zextBit c)
  | .idct => portWrite 0 0x60000000
  | .nopCmd => portWrite 0 0

/-! ## The words of the opcode table -/

/-- The operation that carries a word of the opcode table: its bytes in address order, at least the four of a port
word, written at the data port. TICK, the one row without bits, is no bus operation (log 14). -/
def tableOp (nbits w : Nat) : HostOp :=
  if nbits = 0 then .tick .unbounded
  else .busWrite 0 ((List.range (max 4 ((nbits + 7) / 8))).map fun k => BitVec.ofNat 8 (w % 2 ^ nbits / 256 ^ k))

/-- The instruction a word of the opcode table stands for, as the idle block reads it (R86, log 14). -/
def decodeTableWord (nbits w : Nat) : Option Instr :=
  match decode .command (tableOp nbits w) with
  | .ok i => some i
  | .error _ => none

end Sys2Proof
end

