-- ==== Sys2Proof/Machine/State.lean ====
section
/-! DEFINITION. The block's state (10_state.md), the reasons a step can stop, and the power-on state
(70_reset_and_hazards.md R233). -/
namespace Sys2Proof.Machine

/-- The model faults of 60_exceptions.md R205: the spec's refusals of operations the source leaves without an
effect. Raising one records it in `State.fault`. -/
inductive ModelFault where
  /-- a data-port write while busy with `parameterCount = 0` (R125) -/
  | excessParameter
  /-- a DecodeMacroblock parameter word onto a full Input Queue (R125, R126) -/
  | inFifoOverflow
  /-- an access that is not 32 bits wide, or not at offset 0 or 4 (R61) -/
  | badAccess
  deriving DecidableEq, Repr

/-- Why the machine stops. -/
inductive Fault where
  /-- Raised by every operation, and by a step, on a state with a recorded model fault: the spec gives such a state
  no step (R42, R205). Safe: the model stops where the spec defines nothing. -/
  | afterModelFault (m : ModelFault)
  deriving DecidableEq, Repr

/-- Why an operation has no meaning. -/
inductive Refusal where
  /-- Raised by a refused arm of exec; there is none. Safe. -/
  | notModelled (mnemonic : String)
  /-- Raised by a step whose pending operation is a decode step of no words: R154 asks `k >= 1`. Safe. -/
  | zeroTick
  deriving DecidableEq, Repr

/-- The block. The first group is the record `s` of 10_state.md; `params` holds the parameters of R5; the last
three fields are the model's own (log 1, 2, 9). -/
structure State where
  /-- R22 -/
  command        : Command
  /-- Status field (R21, R40) -/
  colorDepth     : Depth
  /-- Status field (R21) -/
  outputSigned   : Bool
  /-- Status field (R21) -/
  outputSetBit15 : Bool
  /-- Status field (R21): remaining expected words of the current command -/
  parameterCount : BitVec 16
  /-- Status field (R21, R39) -/
  currentBlock   : Block
  /-- Control bit (R23) -/
  enableDataIn   : Bool
  /-- Control bit (R23) -/
  enableDataOut  : Bool
  /-- the Table Store (R24) -/
  tables         : Tables
  /-- the running parameter counter of a table load (R25) -/
  cnt            : Nat
  /-- the Input Queue, head first (R26) -/
  inQueue        : List Word
  /-- R27 -/
  decodingActive : Bool
  /-- the engine's private state (R28) -/
  engine         : EState
  /-- the Output Buffer's pixels (R29) -/
  outBuf         : List Pixel
  /-- the Output Buffer's read cursor, in pixels (R29) -/
  ptr            : Nat
  /-- the 24-bit phase counter (R29) -/
  phase          : Fin 3
  /-- the model fault record (R42) -/
  fault          : Option ModelFault
  /-- the parameters of R5, fixed for a machine -/
  params         : Params
  /-- MODEL: the host's operations not yet applied, in their order (R4; log 1) -/
  pending        : List HostOp
  /-- MODEL: the value the latest read returned (R9; log 2) -/
  lastRead       : Option Word
  /-- MODEL: how many packed reads there have been; it indexes the free pixels (R178; log 9) -/
  draws          : Nat
  deriving DecidableEq, Repr

/-- The power-on state for given parameters (R233, with the values of R230). -/
def State.powerOn (p : Params) : State :=
  { command := .none, colorDepth := .bits4, outputSigned := false, outputSetBit15 := false, parameterCount := 0,
    currentBlock := .cr, enableDataIn := false, enableDataOut := false, tables := p.initTables, cnt := 0,
    inQueue := [], decodingActive := false, engine := engineInit, outBuf := [], ptr := 0, phase := 0,
    fault := none, params := p, pending := [], lastRead := none, draws := 0 }

/-- The machine right after power-on, with the default parameters (R5, R233). -/
def State.reset : State := State.powerOn Params.default

end Sys2Proof.Machine
end

