-- ==== Sys2Proof/Machine/Flags.lean ====
section
/-! DEFINITION. The derived flags (10_state.md R30 to R34), the Status word (R37), the mode of the next data-port
write (30_encoding.md R86), the sequencing states (41_commands.md R131) and inspection (40_register_interface.md
R104). None of them is stored (00_scope.md R10). -/
namespace Sys2Proof.Machine

/-- The Input Queue is at capacity (R26). -/
def queueFull (s : State) : Bool := decide (s.inQueue.length = s.params.inFifoDepth)

/-- R30. -/
def commandBusy (s : State) : Bool :=
  decide (0 < s.parameterCount.toNat) || decide (s.inQueue ≠ []) || s.decodingActive || decide (s.outBuf ≠ [])

/-- R31. -/
def dataInFifoFull (s : State) : Bool :=
  queueFull s || (decide (s.command ≠ .none) && decide (s.parameterCount = 0))

/-- R32. -/
def dataInRequest (s : State) : Bool := !dataInFifoFull s && s.enableDataIn

/-- R33. -/
def dataOutFifoEmpty (s : State) : Bool := decide (s.outBuf = [])

/-- R34. -/
def dataOutRequest (s : State) : Bool := !dataOutFifoEmpty s && s.enableDataOut

/-- The Status word (R37). -/
def statusWord (s : State) : Word :=
  zextBit (dataOutFifoEmpty s) <<< 31 ||| zextBit (dataInFifoFull s) <<< 30 |||
  zextBit (commandBusy s) <<< 29 ||| zextBit (dataInRequest s) <<< 28 |||
  zextBit (dataOutRequest s) <<< 27 ||| s.colorDepth.code.setWidth 32 <<< 25 |||
  zextBit s.outputSigned <<< 24 ||| zextBit s.outputSetBit15 <<< 23 |||
  s.currentBlock.code.setWidth 32 <<< 16 ||| s.parameterCount.setWidth 32

/-- How the next data-port write is read (R86): a command word while idle, else a parameter word of `command`. -/
def writeMode (s : State) : Mode := if commandBusy s then .param s.command else .command

/-- The states of the dispatcher's sequencing (R131). -/
inductive Stage where
  | idle
  | receiving (c : Command)
  | draining
  deriving DecidableEq, Repr

/-- The sequencing state, by the conditions of R131. -/
def stage (s : State) : Stage :=
  if commandBusy s = false then .idle
  else if 0 < s.parameterCount.toNat then .receiving s.command
  else .draining

/-- What inspection tools see (R104): the Status fields and the Output Buffer. -/
structure Inspection where
  status : Word
  outBuf : List Pixel
  ptr    : Nat
  phase  : Fin 3
  deriving DecidableEq, Repr

/-- Inspection, a function of the state: no step, nothing written (R104). -/
def inspect (s : State) : Inspection :=
  { status := statusWord s, outBuf := s.outBuf, ptr := s.ptr, phase := s.phase }

end Sys2Proof.Machine
end

