-- ==== Sys2Proof/Machine/Ops.lean ====
section
/-! DEFINITION. The shared operations: applying an effect to a state without a recorded fault, raising a model
fault (60_exceptions.md R205), the common parts of a dispatch (41_commands.md R120, R124) and of a parameter word
(R125), the end of the Output Buffer (43_output_packer.md R177) and the full reset (70_reset_and_hazards.md R230). -/
namespace Sys2Proof.Machine

/-- Apply an operation whose effect leads from `s` to `t`. A state with a recorded model fault has no step (R42). -/
def perform (s t : State) : Host.Outcome State Fault Refusal :=
  match s.fault with
  | none => .next t
  | some m => .fault (.afterModelFault m)

/-- Raise a model fault: record it and write no other field (R7, R205). This is the block's only "trap-like"
outcome, and nothing returns from it (R208). -/
def raise (m : ModelFault) (s : State) : State := { s with fault := some m }

/-- Leave a read's value for its master (R9). -/
def returnRead (v : Word) (s : State) : State := { s with lastRead := some v }

/-- Take the host's operations `rest` as the ones still pending. -/
def withPending (rest : List HostOp) (s : State) : State := { s with pending := rest }

/-- The common part of a dispatch (R120): the Input Queue is cleared and `cnt` restarts. -/
def beginDispatch (s : State) : State := { s with inQueue := [], cnt := 0 }

/-- The block code a DecodeMacroblock starts at (R39, R121). -/
def startBlock (p : Params) (d : Depth) : Block := if d.isMono then p.monoStartBlock else .cr

/-- `DispatchDecodeMacroblock`, with the word's fields as arguments (R121). -/
def dispatchDecodeMb (d : Depth) (sgn b15 : Bool) (count : BitVec 16) (s : State) : State :=
  { s with
    command := .decodeMacroblock, colorDepth := d, outputSigned := sgn, outputSetBit15 := b15,
    parameterCount := count, currentBlock := startBlock s.params d, engine := engineInit,
    outBuf := [], ptr := 0, phase := 0, decodingActive := false }

/-- `DispatchSetQuantTable` (R122). -/
def dispatchSetQuant (color : Bool) (s : State) : State :=
  { s with command := .setQuantTable, parameterCount := if color then 32 else 16 }

/-- `DispatchSetIDCT` (R123). -/
def dispatchSetIdct (s : State) : State := { s with command := .setIdct, parameterCount := 32 }

/-- `DispatchNone` (R124): `parameterCount` is not written. -/
def dispatchNone (s : State) : State := { s with command := .none }

/-- The common part of a parameter word (R125, R206): both checks, in their order, before anything is written; then
the count goes down by one and `effect` routes the word. -/
def acceptParameter (effect : State → State) (s : State) : State :=
  if s.parameterCount = 0 then raise .excessParameter s
  else if s.command = .decodeMacroblock ∧ queueFull s = true then raise .inFifoOverflow s
  else effect { s with parameterCount := s.parameterCount - 1 }

/-- `EndCheck` (R177): a cursor at or past the end clears the buffer, the cursor and the phase. -/
def endCheck (s : State) : State :=
  if s.outBuf.length ≤ s.ptr then { s with outBuf := [], ptr := 0, phase := 0 } else s

/-- `FullReset` (R230): the Table Store, the enables and the fault record stay. -/
def fullReset (s : State) : State :=
  { s with
    command := .none, colorDepth := .bits4, outputSigned := false, outputSetBit15 := false,
    parameterCount := 0, currentBlock := .cr, inQueue := [], decodingActive := false, cnt := 0,
    engine := engineInit, outBuf := [], ptr := 0, phase := 0 }

end Sys2Proof.Machine
end

