-- ==== Sys2Proof/Machine/Operands.lean ====
section
/-! DEFINITION. How operands are read: the bytes and halves of a parameter word (41_commands.md R127, R128), the
pixels at the read cursor (43_output_packer.md R170), the 15-bit conversion (R174), and the bus window
(20_memory.md R60). -/
namespace Sys2Proof.Machine

/-- Byte `j` of a SetQuantTable parameter word, in table order (R88, R127). -/
def quantByte (o : ByteOrder) (w : Word) (j : Nat) : Byte :=
  match o with
  | .msbFirst => byteOf w (3 - j)
  | .lsbFirst => byteOf w j

/-- The two coefficients of a SetIDCT parameter word, in slot order (R88, R128). -/
def idctHalves (o : HalfOrder) (w : Word) : Half × Half :=
  match o with
  | .lowFirst => (lowHalf w, highHalf w)
  | .highFirst => (highHalf w, lowHalf w)

/-- `px(i)` (R170): a pixel of the buffer, or past its end a free one (R178). -/
def px (s : State) (i : Nat) : Pixel := (s.outBuf[i]?).getD (Config.freePixel s.draws i)

/-- The default of `PACK15` (R174): the top five bits of each channel, red lowest. -/
def rgb555 (p : Pixel) : BitVec 15 := p.extractLsb' 19 5 ++ p.extractLsb' 11 5 ++ p.extractLsb' 3 5

/-- `PACK15` (R5, R174). -/
def pack15Bits (c : Pack15) (p : Pixel) : BitVec 15 :=
  match c with
  | .rgb555 => rgb555 p
  | .unspecified => Config.openPack15 p

/-- `H15` (R174): the 15 bits with `outputSetBit15` forced into bit 15. -/
def half15 (s : State) (p : Pixel) : Half := BitVec.ofBool s.outputSetBit15 ++ pack15Bits s.params.pack15 p

/-- The byte offset in the block's 8-byte window of a bus address, if the address is in it (R60). -/
def windowOffset (p : Params) (addr : Nat) : Option Nat :=
  if p.mdecBase ≤ addr ∧ addr < p.mdecBase + 8 then some (addr - p.mdecBase) else none

end Sys2Proof.Machine
end

