-- ==== Sys2Proof/Machine/Engine.lean ====
section
/-! DEFINITION. The Decode Engine behind its contract, and the decode step (42_decode_step.md). -/
namespace Sys2Proof.Machine

/-- What one `feed` call returns (R150): the engine's next state, the pixels completed, the block code. -/
structure FeedResult where
  estate : EState
  pixels : List Pixel
  block  : Block
  deriving DecidableEq, Repr

/-- `MB_PIXELS(d)` (R153). -/
def mbPixels (p : Params) (d : Depth) : Nat := if d.isMono then p.mbPixelsMono else p.mbPixelsColor

/-- An unknown engine that meets the contract of R150: it completes no macroblock or one of `MB_PIXELS(d)` pixels
(clause 2), and returns a block code in 0 to 5 (clause 3). -/
def feedUnspecified (p : Params) (x : EngineInput) : FeedResult :=
  { estate := Config.engineNext x
    pixels := if Config.engineCompletes x then (List.range (mbPixels p x.depth)).map (Config.enginePixel x) else []
    block := Config.engineBlock x }

/-- The spec's test engine `T_n` (95_test_vectors.md section 0): every `n`-th word completes a macroblock whose
pixels all equal the word's low 24 bits. -/
def feedTest (p : Params) (n : Nat) (e : EState) (w : Word) (d : Depth) : FeedResult :=
  let start : Block := if d.isMono then .y1 else .cr
  if e + 1 = n then { estate := 0, pixels := List.replicate (mbPixels p d) (w.extractLsb' 0 24), block := start }
  else { estate := e + 1, pixels := [], block := start }

/-- `ENGINE.feed` (R150). The word is a pair of half-words, low half first (R152). -/
def feed (p : Params) (e : EState) (w : Word) (d : Depth) (sgn : Bool) (t : Tables) : FeedResult :=
  match p.engine with
  | .unspecified =>
    feedUnspecified p
      { estate := e, firstHalf := lowHalf w, secondHalf := highHalf w, depth := d, isSigned := sgn, tables := t }
  | .test n => feedTest p n e w d

/-- The body of the decode loop (R154): the head word `w` leaves the queue `w :: q` for the engine. -/
def feedWord (w : Word) (q : List Word) (s : State) : State :=
  let r := feed s.params s.engine w s.colorDepth s.outputSigned s.tables
  { s with inQueue := q, engine := r.estate, outBuf := s.outBuf ++ r.pixels, currentBlock := r.block }

/-- The decode loop (R154) for at most `n` words: while the queue holds a word and the buffer is empty. -/
def decodeLoop : Nat → State → State
  | 0, s => s
  | n + 1, s =>
    match s.inQueue with
    | [] => s
    | w :: q => if s.outBuf = [] then decodeLoop n (feedWord w q s) else s

/-- The end of a decode step (R154): an empty queue clears `decodingActive`. -/
def settleActive (s : State) : State := if s.inQueue = [] then { s with decodingActive := false } else s

/-- How many rounds `k` allows: an unbounded step drains until the stop condition (R155), and the queue's length
bounds it. -/
def tickRounds (k : TickBudget) (s : State) : Nat :=
  match k with
  | .atMost n => n
  | .unbounded => s.inQueue.length

/-- `Tick(k)` (R154, R156). -/
def decodeStep (k : TickBudget) (s : State) : State :=
  if s.decodingActive = false ∨ s.outBuf ≠ [] then s
  else settleActive (decodeLoop (tickRounds k s) s)

/-- TICK (R154). -/
def execTick (k : TickBudget) (s : State) : Host.Outcome State Fault Refusal := perform s (decodeStep k s)

end Sys2Proof.Machine
end

