-- ==== Sys2Proof/Machine/Packer.lean ====
section
/-! DEFINITION. The output packer and the data-port read (43_output_packer.md; 40_register_interface.md R101).
Each packing gives the word returned and the state with its cursor and phase advanced. -/
namespace Sys2Proof.Machine

/-- `Pack4` (R172): eight top nibbles, least significant nibble first. -/
def pack4 (s : State) : Word × State :=
  ((List.range 8).foldl (fun r i => r ||| ((px s (s.ptr + i)).extractLsb' 4 4).setWidth 32 <<< (4 * i)) 0,
   { s with ptr := s.ptr + 8 })

/-- `Pack8` (R173): four low bytes, least significant first. -/
def pack8 (s : State) : Word × State :=
  ((List.range 4).foldl (fun r i => r ||| ((px s (s.ptr + i)).extractLsb' 0 8).setWidth 32 <<< (8 * i)) 0,
   { s with ptr := s.ptr + 4 })

/-- `Pack15` (R175): two half-words, the first pixel low. -/
def pack15 (s : State) : Word × State :=
  ((half15 s (px s s.ptr)).setWidth 32 ||| (half15 s (px s (s.ptr + 1))).setWidth 32 <<< 16,
   { s with ptr := s.ptr + 2 })

/-- `Pack24` (R176): four pixels over three reads, by the phase. -/
def pack24 (s : State) : Word × State :=
  match s.phase with
  | 0 => ((px s s.ptr).setWidth 32 ||| ((px s (s.ptr + 1)).extractLsb' 0 8).setWidth 32 <<< 24,
          { s with phase := 1 })
  | 1 => (((px s (s.ptr + 1)).extractLsb' 8 16).setWidth 32 |||
            ((px s (s.ptr + 2)).extractLsb' 0 16).setWidth 32 <<< 16,
          { s with phase := 2 })
  | 2 => (((px s (s.ptr + 2)).extractLsb' 16 8).setWidth 32 ||| (px s (s.ptr + 3)).setWidth 32 <<< 8,
          { s with phase := 0, ptr := s.ptr + 4 })

/-- The packing of the current depth (R171). -/
def packWord (s : State) : Word × State :=
  match s.colorDepth with
  | .bits4 => pack4 s
  | .bits8 => pack8 s
  | .bits15 => pack15 s
  | .bits24 => pack24 s

/-- `PackRead` (R171): pack, check the end of the buffer, return the word. The draw number of the free pixels
advances (R178, log 9). -/
def packRead (s : State) : State :=
  let r := packWord s
  returnRead r.1 { endCheck r.2 with draws := s.draws + 1 }

/-- The data-port read (R101): an empty buffer returns 0 and writes nothing. -/
def readData (s : State) : State := if s.outBuf = [] then returnRead 0 s else packRead s

/-- RD_DATA (R101). -/
def execRdData (s : State) : Host.Outcome State Fault Refusal := perform s (readData s)

end Sys2Proof.Machine
end

