-- ==== Sys2Proof/Machine/Commands.lean ====
section
/-! DEFINITION. The command words (41_commands.md R120 to R124). Each meaning is the dispatch of that command; that
the word is a command word at all, because the block is idle, is the decoder's doing (30_encoding.md R86, log 13). -/
namespace Sys2Proof.Machine

/-- DECODE_MB (R121); the ignored bits have no effect (R90). -/
def execDecodeMb (d : Depth) (sgn b15 : Bool) (_ignored : BitVec 9) (count : BitVec 16) (s : State) :
    Host.Outcome State Fault Refusal :=
  perform s (dispatchDecodeMb d sgn b15 count (beginDispatch s))

/-- SET_QUANT (R122). -/
def execSetQuant (_ignored : BitVec 28) (color : Bool) (s : State) : Host.Outcome State Fault Refusal :=
  perform s (dispatchSetQuant color (beginDispatch s))

/-- SET_IDCT (R123). -/
def execSetIdct (_ignored : BitVec 29) (s : State) : Host.Outcome State Fault Refusal :=
  perform s (dispatchSetIdct (beginDispatch s))

/-- NOP_CMD_0 (R124). -/
def execNopCmd0 (_ignored : BitVec 29) (s : State) : Host.Outcome State Fault Refusal :=
  perform s (dispatchNone (beginDispatch s))

/-- NOP_CMD_4 (R124). -/
def execNopCmd4 (_ignored : BitVec 29) (s : State) : Host.Outcome State Fault Refusal :=
  perform s (dispatchNone (beginDispatch s))

/-- NOP_CMD_5 (R124). -/
def execNopCmd5 (_ignored : BitVec 29) (s : State) : Host.Outcome State Fault Refusal :=
  perform s (dispatchNone (beginDispatch s))

/-- NOP_CMD_6 (R124). -/
def execNopCmd6 (_ignored : BitVec 29) (s : State) : Host.Outcome State Fault Refusal :=
  perform s (dispatchNone (beginDispatch s))

/-- NOP_CMD_7 (R124). -/
def execNopCmd7 (_ignored : BitVec 29) (s : State) : Host.Outcome State Fault Refusal :=
  perform s (dispatchNone (beginDispatch s))

end Sys2Proof.Machine
end

