-- ==== Sys2Proof/Machine/Parameters.lean ====
section
/-! DEFINITION. The parameter words (41_commands.md R125 to R129). -/
namespace Sys2Proof.Machine

/-- `DataWord` (R126): queue the word; a full queue or a count of 0 starts decoding. -/
def dataWord (w : Word) (s : State) : State :=
  let t : State := { s with inQueue := s.inQueue ++ [w] }
  if queueFull t = true ∨ t.parameterCount = 0 then { t with decodingActive := true } else t

/-- The four bytes of word `i` of a quantisation table, at `4*i` to `4*i+3` (R127). -/
def putQuantWord (o : ByteOrder) (w : Word) (i : Nat) (t : Vector Byte 64) : Vector Byte 64 :=
  (((t.setIfInBounds (4 * i) (quantByte o w 0)).setIfInBounds (4 * i + 1) (quantByte o w 1)).setIfInBounds
    (4 * i + 2) (quantByte o w 2)).setIfInBounds (4 * i + 3) (quantByte o w 3)

/-- `QuantWord` (R127): luma for the first 16 words, chroma for the next 16, dropped past the table bounds. -/
def quantWord (w : Word) (s : State) : State :=
  let o := s.params.quantByteOrder
  let i := s.cnt
  let t : Tables :=
    if i < 16 then { s.tables with lumaQ := putQuantWord o w i s.tables.lumaQ }
    else if i < 32 then { s.tables with chromaQ := putQuantWord o w (i - 16) s.tables.chromaQ }
    else s.tables
  { s with tables := t, cnt := i + 1 }

/-- `IdctWord` (R128): two successive coefficient slots, dropped past the table bound. -/
def idctWord (w : Word) (s : State) : State :=
  let c := idctHalves s.params.idctHalfOrder w
  let i := s.cnt
  let t : Tables :=
    if 2 * i + 1 < 64 then
      { s.tables with idct := (s.tables.idct.setIfInBounds (2 * i) c.1).setIfInBounds (2 * i + 1) c.2 }
    else s.tables
  { s with tables := t, cnt := i + 1 }

/-- The routing of an accepted parameter word by the recorded command (R125). -/
def routeWord (c : Command) (w : Word) : State → State :=
  match c with
  | .decodeMacroblock => dataWord w
  | .setQuantTable => quantWord w
  | .setIdct => idctWord w
  | .none => id

/-- PARAM_DATA (R126). -/
def execParamData (w : Word) (s : State) : Host.Outcome State Fault Refusal :=
  perform s (acceptParameter (dataWord w) s)

/-- PARAM_QUANT (R127). -/
def execParamQuant (w : Word) (s : State) : Host.Outcome State Fault Refusal :=
  perform s (acceptParameter (quantWord w) s)

/-- PARAM_IDCT (R128). -/
def execParamIdct (w : Word) (s : State) : Host.Outcome State Fault Refusal :=
  perform s (acceptParameter (idctWord w) s)

/-- PARAM_NONE (R129): after the common step the word has no effect. -/
def execParamNone (_w : Word) (s : State) : Host.Outcome State Fault Refusal :=
  perform s (acceptParameter id s)

end Sys2Proof.Machine
end

