-- ==== Sys2Proof/Machine/Ports.lean ====
section
/-! DEFINITION. The data-port write before classification, the control-port write and the status read
(40_register_interface.md R100, R102, R103). The data-port read stands in Packer.lean. -/
namespace Sys2Proof.Machine

/-- `CommandDispatch` (R120): the branch on the opcode `w[31:29]`. -/
def commandDispatch (w : Word) (s : State) : State :=
  let t := beginDispatch s
  if opcode w = 1 then dispatchDecodeMb (depthField w) (bitOf w 26) (bitOf w 25) (countField w) t
  else if opcode w = 2 then dispatchSetQuant (bitOf w 0) t
  else if opcode w = 3 then dispatchSetIdct t
  else dispatchNone t

/-- `ParameterWrite` (R125): the common step, then the routing by the recorded command. -/
def parameterWrite (w : Word) (s : State) : State := acceptParameter (routeWord s.command w) s

/-- WR_DATA (R100): a parameter word while busy, a command word while idle. -/
def execWrData (w : Word) (s : State) : Host.Outcome State Fault Refusal :=
  perform s (if commandBusy s then parameterWrite w s else commandDispatch w s)

/-- The control-port write (R102): both enables are loaded, then a set reset bit resets. -/
def writeControl (reset enIn enOut : Bool) (s : State) : State :=
  let t : State := { s with enableDataIn := enIn, enableDataOut := enOut }
  if reset then fullReset t else t

/-- WR_CTRL (R102). -/
def execWrCtrl (reset enIn enOut : Bool) (_ignored : BitVec 29) (s : State) : Host.Outcome State Fault Refusal :=
  perform s (writeControl reset enIn enOut s)

/-- RD_STATUS (R103): the Status word of the current state; no field of the block is written. -/
def execRdStatus (s : State) : Host.Outcome State Fault Refusal := perform s (returnRead (statusWord s) s)

end Sys2Proof.Machine
end

