-- ==== Sys2Proof/Machine/Dispatch.lean ====
section
/-! DEFINITION. One arm per row of spec/opcode_table.json. -/
namespace Sys2Proof.Machine

def exec (i : Instr) (s : State) : Host.Outcome State Fault Refusal :=
  match i with
  | .decodeMb d sgn b15 ig n => Sys2Proof.Machine.execDecodeMb d sgn b15 ig n s
  | .setQuant ig c => Sys2Proof.Machine.execSetQuant ig c s
  | .setIdct ig => Sys2Proof.Machine.execSetIdct ig s
  | .nopCmd0 ig => Sys2Proof.Machine.execNopCmd0 ig s
  | .nopCmd4 ig => Sys2Proof.Machine.execNopCmd4 ig s
  | .nopCmd5 ig => Sys2Proof.Machine.execNopCmd5 ig s
  | .nopCmd6 ig => Sys2Proof.Machine.execNopCmd6 ig s
  | .nopCmd7 ig => Sys2Proof.Machine.execNopCmd7 ig s
  | .paramData w => Sys2Proof.Machine.execParamData w s
  | .paramQuant w => Sys2Proof.Machine.execParamQuant w s
  | .paramIdct w => Sys2Proof.Machine.execParamIdct w s
  | .paramNone w => Sys2Proof.Machine.execParamNone w s
  | .wrData w => Sys2Proof.Machine.execWrData w s
  | .rdData => Sys2Proof.Machine.execRdData s
  | .wrCtrl r i1 o1 ig => Sys2Proof.Machine.execWrCtrl r i1 o1 ig s
  | .rdStatus => Sys2Proof.Machine.execRdStatus s
  | .tick k => Sys2Proof.Machine.execTick k s

end Sys2Proof.Machine
end

