-- ==== Sys2Proof/Machine/Fetch.lean ====
section
/-! DEFINITION. Applying one operation of the host: classification (30_encoding.md R86), admission (20_memory.md
R61, before anything else: 60_exceptions.md R206), then the instruction's meaning. -/
namespace Sys2Proof.Machine

/-- Apply the operation `op` to a block without a recorded model fault. -/
def applyOp (op : HostOp) (s : State) : Host.Outcome State Fault Refusal :=
  match decode (writeMode s) op with
  | .ok i => exec i s
  | .error .badAccess => perform s (raise .badAccess s)
  | .error .zeroTick => .refused .zeroTick

/-- Apply the first pending operation. With none pending the block does nothing: it never starts anything itself
(R69), and its state persists (R214; log 1). -/
def applyPending (s : State) : Host.Outcome State Fault Refusal :=
  match s.pending with
  | [] => perform s s
  | op :: rest => applyOp op (withPending rest s)

end Sys2Proof.Machine
end

