-- ==== Sys2Proof/Machine/Step.lean ====
section
/-! DEFINITION. One step of the machine: the host's next operation is applied whole (00_scope.md R4, 20_memory.md
R68). A state with a recorded model fault has no step (10_state.md R42). -/
namespace Sys2Proof.Machine

/-- One step. -/
def step (s : State) : Host.Outcome State Fault Refusal :=
  match s.fault with
  | none => applyPending s
  | some m => .fault (.afterModelFault m)

/-- `s` with the operation that carries a word of the opcode table as the next one pending (log 14). -/
def State.withFetchWord (s : State) (nbits w : Nat) : State :=
  { s with pending := Sys2Proof.tableOp nbits w :: s.pending }

end Sys2Proof.Machine
end

