-- ==== Sys2Proof/Safety.lean ====
section
/-! DEFINITION. The terms claims are stated in: live and idle states, the invariants of 10_state.md and the ones
derived from the command rules, runs, reads in a row, and the DMA collaborator's contract
(40_register_interface.md R105). -/
namespace Sys2Proof.Machine

/-- No model fault is recorded: the premise of every claim about an operation (R9, R205). -/
abbrev Live (s : State) : Prop := s.fault = none

/-- The block is idle (R12). -/
abbrev Idle (s : State) : Prop := commandBusy s = false

/-- A table load is being served (R122, R123). -/
abbrev TableLoad (s : State) : Prop := s.command = .setQuantTable ∨ s.command = .setIdct

/-- What holds after every operation. -/
structure BlockInv (s : State) : Prop where
  /-- `IN_FIFO_DEPTH >= 1` (R5) -/
  params_valid : s.params.Valid
  /-- the queue is bounded (R26) -/
  queue_bound : s.inQueue.length ≤ s.params.inFifoDepth
  /-- `decodingActive` implies a word to decode (R27) -/
  active_queue : s.decodingActive = true → s.inQueue ≠ []
  /-- a queue that is full, or whose stream has ended, is being decoded (R126) -/
  queue_active : s.inQueue ≠ [] →
    s.inQueue.length = s.params.inFifoDepth ∨ s.parameterCount = 0 → s.decodingActive = true
  /-- "The Output Buffer's read cursor never exceeds its length" (R29) -/
  cursor_bound : s.ptr ≤ s.outBuf.length
  /-- an empty buffer has a reset cursor and phase (R29) -/
  empty_cursor : s.outBuf = [] → s.ptr = 0 ∧ s.phase = 0
  /-- the phase moves at 24-bit depth only (R29) -/
  phase_depth : s.phase ≠ 0 → s.colorDepth = .bits24
  /-- the buffer holds nothing or one macroblock (R29, R153) -/
  buffer_size : s.outBuf = [] ∨ s.outBuf.length = mbPixels s.params s.colorDepth
  /-- only a DecodeMacroblock has queued words or pixels (R125, R126) -/
  decode_only : s.command ≠ .decodeMacroblock → s.inQueue = [] ∧ s.outBuf = []
  /-- no count is pending under None (R129) -/
  none_count : s.command = .none → s.parameterCount = 0
  /-- `cnt` never exceeds 32 (R25), and a table load ends in the table (R202) -/
  cnt_bound : s.cnt ≤ 32
  load_bound : TableLoad s → s.cnt + s.parameterCount.toNat ≤ 32

/-- `n` steps, stopping at the first fault or refusal. -/
def runSteps : Nat → State → Host.Outcome State Fault Refusal
  | 0, s => .next s
  | n + 1, s =>
    match step s with
    | .next t => runSteps n t
    | .fault f => .fault f
    | .refused r => .refused r

/-- `n` data-port reads in a row. -/
def readN : Nat → State → Host.Outcome State Fault Refusal
  | 0, s => .next s
  | n + 1, s =>
    match exec .rdData s with
    | .next t => readN n t
    | .fault f => .fault f
    | .refused r => .refused r

/-- How many reads drain a buffer of `n` pixels, `n` a multiple of the pixels that fill whole words (R153). -/
def drainReads (d : Depth) (n : Nat) : Nat :=
  match d with
  | .bits4 => n / 8
  | .bits8 => n / 4
  | .bits15 => n / 2
  | .bits24 => n * 3 / 4

/-- How many pixels a read moves the cursor by (R172, R173, R175, R176). -/
def advance (d : Depth) (phase : Fin 3) : Nat :=
  match d with
  | .bits4 => 8
  | .bits8 => 4
  | .bits15 => 2
  | .bits24 => if phase = 2 then 4 else 0

/-- The DMA collaborator's contract (R105): a data-port write when `dataInRequest` holds, a data-port read when
`dataOutRequest` holds. -/
inductive DmaOp (s : State) : HostOp → Prop where
  | feed (w : Word) (h : dataInRequest s = true) : DmaOp s (portWrite 0 w)
  | drain (h : dataOutRequest s = true) : DmaOp s (.busRead 0 4)

/-- Two outcomes that differ in the latest read value only. -/
def SameButRead : Host.Outcome State Fault Refusal → Host.Outcome State Fault Refusal → Prop
  | .next s, .next t => { s with lastRead := none } = { t with lastRead := none }
  | .fault f, .fault g => f = g
  | .refused r, .refused q => r = q
  | _, _ => False

end Sys2Proof.Machine
end

