-- ==== Sys2Proof/Certificates/Slice0/Obligations.lean ====
section
/-! DEFINITION. The statements about the block, for the provers. Every parameter of 00_scope.md R5 is a field of the
state, so a statement over every state holds for every value of the parameters; where the open engine, an open
`PACK15` or a free pixel stands in a statement, it holds whatever that value is. `lastRead`, `draws` and `pending` are
the model's own fields (log 1, 2, 9): what a statement says of them is the model's choice. -/

open Sys2Proof Sys2Proof.Machine

/-! ## Power-on, steps, admission -/

/-- The power-on state (R233, with the values of R230, which are the spec's own choices D7, D27, D40, D42; log 11)
and its Status word. -/
def Obligations.PowerOnState : Prop :=
  ∀ p : Params, p.Valid →
    ∃ s, s = State.powerOn p ∧
      s.command = .none ∧ s.colorDepth = .bits4 ∧ s.outputSigned = false ∧ s.outputSetBit15 = false ∧
      s.parameterCount = 0 ∧ s.currentBlock = .cr ∧ s.enableDataIn = false ∧ s.enableDataOut = false ∧
      s.tables = p.initTables ∧ s.cnt = 0 ∧ s.inQueue = [] ∧ s.decodingActive = false ∧ s.engine = engineInit ∧
      s.outBuf = [] ∧ s.ptr = 0 ∧ s.phase = 0 ∧ s.fault = none ∧
      dataOutFifoEmpty s = true ∧ dataInFifoFull s = false ∧ commandBusy s = false ∧
      dataInRequest s = false ∧ dataOutRequest s = false ∧ statusWord s = 0x80040000

/-- The invariants hold at power-on, for every parameter set R5 allows. -/
def Obligations.PowerOnMeetsInvariants : Prop :=
  ∀ p : Params, p.Valid → BlockInv (State.powerOn p)

/-- The invariants of R26, R27, R29, and those derived in R25, R125, R126, R129, are kept by every step. -/
def Obligations.StepKeepsInvariants : Prop :=
  ∀ s t : State, BlockInv s → step s = .next t → BlockInv t

/-- A step takes the first pending operation and runs the instruction the decoder reads in the mode of R86. -/
def Obligations.StepRunsDecodedOperation : Prop :=
  ∀ (s : State) (op : HostOp) (rest : List HostOp) (i : Instr),
    Live s → s.pending = op :: rest →
    decode (if commandBusy s then .param s.command else .command) op = .ok i →
    step s = exec i { s with pending := rest }

/-- A data-port write is classified by the state, never by the word's bits (R86): a command word while idle, a
parameter word in the format of `command` while busy. -/
def Obligations.WriteClassifiedByState : Prop :=
  ∀ (s : State) (w : Word) (rest : List HostOp), Live s → s.pending = portWrite 0 w :: rest →
    (commandBusy s = false → step s = exec (decodeCommand w) { s with pending := rest }) ∧
    (commandBusy s = true → step s = exec (decodeParam s.command w) { s with pending := rest })

/-- A block with a recorded model fault has no step, whatever the operation; a block with no pending operation keeps
its state (R42, R214; the second is the model's choice, log 1). -/
def Obligations.FaultedBlockHasNoStep : Prop :=
  (∀ (s : State) (m : ModelFault), s.fault = some m →
    step s = .fault (.afterModelFault m) ∧ ∀ i : Instr, exec i s = .fault (.afterModelFault m)) ∧
  (∀ s : State, Live s → s.pending = [] → step s = .next s)

/-- Any access but a 32-bit one at offset 0 or 4 records BadAccess and writes nothing else, before anything else is
looked at (R61, R206: the spec's decisions D12, D44). -/
def Obligations.UnadmittedAccessIsBadAccess : Prop :=
  ∀ (s : State) (rest : List HostOp), Live s →
    (∀ (off : Nat) (bytes : List Byte), ¬(bytes.length = 4 ∧ (off = 0 ∨ off = 4)) →
      s.pending = .busWrite off bytes :: rest →
      step s = .next { s with pending := rest, fault := some .badAccess }) ∧
    (∀ off n : Nat, ¬(n = 4 ∧ (off = 0 ∨ off = 4)) →
      s.pending = .busRead off n :: rest →
      step s = .next { s with pending := rest, fault := some .badAccess })

/-- A decode step of no words is refused. R154 says only that `k >= 1`; the refusal and its name are the model's choice
(log 17). -/
def Obligations.TickOfNoWordsRefused : Prop :=
  ∀ (s : State) (rest : List HostOp), Live s → s.pending = .tick (.atMost 0) :: rest →
    step s = .refused .zeroTick

/-! ## Command words -/

/-- DECODE_MB: what it writes, and nothing else (R120, R121; the clears of the cursor, the phase and the flag are the
spec's decision D35). -/
def Obligations.DecodeMbResult : Prop :=
  ∀ (s : State) (d : Depth) (sgn b15 : Bool) (ig : BitVec 9) (n : BitVec 16), Live s →
    exec (.decodeMb d sgn b15 ig n) s = .next
      { s with
        command := .decodeMacroblock, colorDepth := d, outputSigned := sgn, outputSetBit15 := b15,
        parameterCount := n,
        currentBlock := if d = .bits4 ∨ d = .bits8 then s.params.monoStartBlock else .cr,
        engine := engineInit, inQueue := [], outBuf := [], ptr := 0, phase := 0, cnt := 0,
        decodingActive := false }

/-- SET_QUANT and SET_IDCT: what they write, and nothing else (R120, R122, R123; the spec's decision D34). -/
def Obligations.TableCommandResults : Prop :=
  ∀ s : State, Live s →
    (∀ (ig : BitVec 28) (color : Bool), exec (.setQuant ig color) s = .next
      { s with command := .setQuantTable, parameterCount := if color then 32 else 16, inQueue := [], cnt := 0 }) ∧
    (∀ ig : BitVec 29, exec (.setIdct ig) s = .next
      { s with command := .setIdct, parameterCount := 32, inQueue := [], cnt := 0 })

/-- The five unknown opcodes record None and set no parameter count (R120, R124). -/
def Obligations.NopCommandResults : Prop :=
  ∀ (s : State) (ig : BitVec 29) (i : Instr), Live s →
    i = .nopCmd0 ig ∨ i = .nopCmd4 ig ∨ i = .nopCmd5 ig ∨ i = .nopCmd6 ig ∨ i = .nopCmd7 ig →
    exec i s = .next { s with command := .none, inQueue := [], cnt := 0 }

/-- The flow flags right after each dispatch from an idle block (the "Flags written" of R121 to R124). -/
def Obligations.FlagsAfterDispatch : Prop :=
  ∀ s : State, Live s → Idle s → s.params.Valid →
    (∀ (d : Depth) (sgn b15 : Bool) (ig : BitVec 9) (n : BitVec 16),
      ∃ t, exec (.decodeMb d sgn b15 ig n) s = .next t ∧
        dataOutFifoEmpty t = true ∧ dataOutRequest t = false ∧
        (commandBusy t = true ↔ 0 < n.toNat) ∧ (dataInFifoFull t = true ↔ n = 0) ∧
        (dataInRequest t = true ↔ 0 < n.toNat ∧ s.enableDataIn = true)) ∧
    (∀ i : Instr, (∃ ig c, i = .setQuant ig c) ∨ (∃ ig, i = .setIdct ig) →
      ∃ t, exec i s = .next t ∧
        commandBusy t = true ∧ dataInFifoFull t = false ∧ dataInRequest t = s.enableDataIn) ∧
    (∀ i : Instr,
      (∃ ig, i = .nopCmd0 ig ∨ i = .nopCmd4 ig ∨ i = .nopCmd5 ig ∨ i = .nopCmd6 ig ∨ i = .nopCmd7 ig) →
      ∃ t, exec i s = .next t ∧
        commandBusy t = false ∧ dataInFifoFull t = false ∧ dataInRequest t = s.enableDataIn)

/-- An idle data-port write selects exactly one command by `w[31:29]`, with the fields and the count of its word
(R81 to R85, R120, R132; the field positions are the spec's decisions D1, D2; log 10). -/
def Obligations.DispatchTotalAndExclusive : Prop :=
  ∀ (s : State) (w : Word), Live s → Idle s →
    ∃ t, exec (.wrData w) s = .next t ∧ t.inQueue = [] ∧ t.cnt = 0 ∧ t.tables = s.tables ∧
      (w.extractLsb' 29 3 = 1 →
        t.command = .decodeMacroblock ∧ t.parameterCount = w.extractLsb' 0 16 ∧
        t.colorDepth.code = w.extractLsb' 27 2 ∧ t.outputSigned = w.getLsbD 26 ∧
        t.outputSetBit15 = w.getLsbD 25) ∧
      (w.extractLsb' 29 3 = 2 →
        t.command = .setQuantTable ∧ t.parameterCount = if w.getLsbD 0 then 32 else 16) ∧
      (w.extractLsb' 29 3 = 3 → t.command = .setIdct ∧ t.parameterCount = 32) ∧
      (w.extractLsb' 29 3 ≠ 1 → w.extractLsb' 29 3 ≠ 2 → w.extractLsb' 29 3 ≠ 3 →
        t.command = .none ∧ t.parameterCount = 0 ∧ Idle t)

/-! ## Parameter words -/

/-- An accepted PARAM_DATA word is queued, the count goes down, and a full queue or an ended stream starts decoding;
nothing else changes (R125, R126). -/
def Obligations.ParamDataResult : Prop :=
  ∀ (s : State) (w : Word), Live s → s.parameterCount ≠ 0 →
    ¬(s.command = .decodeMacroblock ∧ s.inQueue.length = s.params.inFifoDepth) →
    exec (.paramData w) s = .next
      { s with
        parameterCount := s.parameterCount - 1, inQueue := s.inQueue ++ [w],
        decodingActive :=
          s.decodingActive || decide (s.inQueue.length + 1 = s.params.inFifoDepth ∨ s.parameterCount = 1) }

/-- An accepted PARAM_QUANT word puts its four bytes at table index `4*cnt`, luma first, then chroma, and drops them
past the bounds; every other table entry and every other field keeps its value (R125, R127; byte order by the
parameter, D15). -/
def Obligations.ParamQuantResult : Prop :=
  ∀ (s : State) (w : Word), Live s → s.parameterCount ≠ 0 →
    ¬(s.command = .decodeMacroblock ∧ s.inQueue.length = s.params.inFifoDepth) →
    ∃ tb : Tables,
      exec (.paramQuant w) s = .next
        { s with parameterCount := s.parameterCount - 1, cnt := s.cnt + 1, tables := tb } ∧
      tb.idct = s.tables.idct ∧
      ∀ (k : Nat) (hk : k < 64) (b : Byte),
        (s.params.quantByteOrder = .msbFirst → b = w.extractLsb' (24 - 8 * (k % 4)) 8) →
        (s.params.quantByteOrder = .lsbFirst → b = w.extractLsb' (8 * (k % 4)) 8) →
        tb.lumaQ[k] = (if k / 4 = s.cnt then b else s.tables.lumaQ[k]) ∧
        tb.chromaQ[k] = (if k / 4 + 16 = s.cnt then b else s.tables.chromaQ[k])

/-- An accepted PARAM_IDCT word puts its two halves at slots `2*cnt` and `2*cnt+1` and drops them past the bound;
every other slot and every other field keeps its value (R125, R128; half order by the parameter, D16). -/
def Obligations.ParamIdctResult : Prop :=
  ∀ (s : State) (w : Word), Live s → s.parameterCount ≠ 0 →
    ¬(s.command = .decodeMacroblock ∧ s.inQueue.length = s.params.inFifoDepth) →
    ∃ tb : Tables,
      exec (.paramIdct w) s = .next
        { s with parameterCount := s.parameterCount - 1, cnt := s.cnt + 1, tables := tb } ∧
      tb.lumaQ = s.tables.lumaQ ∧ tb.chromaQ = s.tables.chromaQ ∧
      ∀ (k : Nat) (hk : k < 64) (c : Half),
        (s.params.idctHalfOrder = .lowFirst → c = w.extractLsb' (16 * (k % 2)) 16) →
        (s.params.idctHalfOrder = .highFirst → c = w.extractLsb' (16 - 16 * (k % 2)) 16) →
        tb.idct[k] = (if k / 2 = s.cnt then c else s.tables.idct[k])

/-- A parameter word under None only counts down (R125, R129). -/
def Obligations.ParamNoneResult : Prop :=
  ∀ (s : State) (w : Word), Live s → s.parameterCount ≠ 0 →
    ¬(s.command = .decodeMacroblock ∧ s.inQueue.length = s.params.inFifoDepth) →
    exec (.paramNone w) s = .next { s with parameterCount := s.parameterCount - 1 }

/-- The two faults of a parameter word, in their order; a faulting word writes nothing but the fault record (R125,
R205, R206: the spec's decisions D10, D11, D44). -/
def Obligations.ParameterWordFaults : Prop :=
  ∀ (s : State) (w : Word) (i : Instr), Live s →
    i = .paramData w ∨ i = .paramQuant w ∨ i = .paramIdct w ∨ i = .paramNone w ∨
      (i = .wrData w ∧ commandBusy s = true) →
    (s.parameterCount = 0 → exec i s = .next { s with fault := some .excessParameter }) ∧
    (s.parameterCount ≠ 0 → s.command = .decodeMacroblock → s.inQueue.length = s.params.inFifoDepth →
      exec i s = .next { s with fault := some .inFifoOverflow })

/-! ## The ports -/

/-- WR_DATA is the row its state classifies it as (R86, R100). -/
def Obligations.WrDataIsItsRow : Prop :=
  ∀ (s : State) (w : Word),
    (commandBusy s = false → exec (.wrData w) s = exec (decodeCommand w) s) ∧
    (commandBusy s = true → exec (.wrData w) s = exec (decodeParam s.command w) s)

/-- A busy data-port write that neither fault stops is accepted: one count less, routed by the command (R125 to
R129). -/
def Obligations.BusyWriteAccepted : Prop :=
  ∀ (s : State) (w : Word), Live s → commandBusy s = true → s.parameterCount ≠ 0 →
    ¬(s.command = .decodeMacroblock ∧ s.inQueue.length = s.params.inFifoDepth) →
    ∃ t, exec (.wrData w) s = .next t ∧ Live t ∧
      t.parameterCount = s.parameterCount - 1 ∧ t.command = s.command ∧ t.outBuf = s.outBuf ∧
      (s.command = .decodeMacroblock → t.inQueue = s.inQueue ++ [w] ∧ t.tables = s.tables ∧ t.cnt = s.cnt) ∧
      (TableLoad s → t.inQueue = s.inQueue ∧ t.cnt = s.cnt + 1 ∧ t.decodingActive = s.decodingActive) ∧
      (s.command = .none → t = { s with parameterCount := s.parameterCount - 1 })

/-- WR_CTRL loads both enables, and with the reset bit performs the full reset, which keeps the Table Store and the
enables just loaded (R102, R230, R231; the values are the spec's decisions D7, D28, D40, D42; log 11). -/
def Obligations.ControlWriteResult : Prop :=
  ∀ (s : State) (enIn enOut : Bool) (ig : BitVec 29), Live s →
    exec (.wrCtrl false enIn enOut ig) s = .next { s with enableDataIn := enIn, enableDataOut := enOut } ∧
    exec (.wrCtrl true enIn enOut ig) s = .next
      { s with
        enableDataIn := enIn, enableDataOut := enOut, command := .none, colorDepth := .bits4,
        outputSigned := false, outputSetBit15 := false, parameterCount := 0, currentBlock := .cr, inQueue := [],
        decodingActive := false, cnt := 0, engine := engineInit, outBuf := [], ptr := 0, phase := 0 }

/-- RD_STATUS returns every field and flag at its bits and writes nothing of the block (R30 to R34, R37, R103; the bit
positions are the spec's decision D4; log 10). -/
def Obligations.StatusReadResult : Prop :=
  ∀ s : State, Live s →
    ∃ v : Word, exec .rdStatus s = .next { s with lastRead := some v } ∧
      (v.getLsbD 31 = true ↔ s.outBuf = []) ∧
      (v.getLsbD 30 = true ↔
        s.inQueue.length = s.params.inFifoDepth ∨ (s.command ≠ .none ∧ s.parameterCount = 0)) ∧
      (v.getLsbD 29 = true ↔
        0 < s.parameterCount.toNat ∨ s.inQueue ≠ [] ∨ s.decodingActive = true ∨ s.outBuf ≠ []) ∧
      (v.getLsbD 28 = true ↔
        ¬(s.inQueue.length = s.params.inFifoDepth ∨ (s.command ≠ .none ∧ s.parameterCount = 0)) ∧
          s.enableDataIn = true) ∧
      (v.getLsbD 27 = true ↔ s.outBuf ≠ [] ∧ s.enableDataOut = true) ∧
      v.extractLsb' 25 2 = s.colorDepth.code ∧ v.getLsbD 24 = s.outputSigned ∧
      v.getLsbD 23 = s.outputSetBit15 ∧ v.extractLsb' 19 4 = 0 ∧
      v.extractLsb' 16 3 = s.currentBlock.code ∧ v.extractLsb' 0 16 = s.parameterCount

/-- Inspection sees the word a status read would return, and the Output Buffer as it stands; the status read after it
finds them unchanged (R104). -/
def Obligations.InspectionMatchesStatusRead : Prop :=
  ∀ s : State, Live s →
    ∃ t, exec .rdStatus s = .next t ∧ t.lastRead = some (inspect s).status ∧ inspect t = inspect s ∧
      (inspect s).outBuf = s.outBuf ∧ (inspect s).ptr = s.ptr ∧ (inspect s).phase = s.phase

/-- A data-port read of an empty buffer returns 0 and leaves the block unchanged (R101, R201). -/
def Obligations.UnderrunReturnsZero : Prop :=
  ∀ s : State, Live s → s.outBuf = [] → exec .rdData s = .next { s with lastRead := some 0 }

/-! ## The output packer -/

/-- `Pack4` (R172): eight top nibbles, least significant first; the cursor advances by 8. The end of the buffer is as
R177 says; `lastRead` and `draws` are the model's (log 2, 9). -/
def Obligations.FourBitRead : Prop :=
  ∀ s : State, Live s → s.outBuf ≠ [] → s.colorDepth = .bits4 →
    ∃ v : Word,
      exec .rdData s = .next
        (if s.outBuf.length ≤ s.ptr + 8
         then { s with outBuf := [], ptr := 0, phase := 0, lastRead := some v, draws := s.draws + 1 }
         else { s with ptr := s.ptr + 8, lastRead := some v, draws := s.draws + 1 }) ∧
      ∀ i : Nat, i < 8 → ∀ q : Pixel, s.outBuf[s.ptr + i]? = some q →
        v.extractLsb' (4 * i) 4 = q.extractLsb' 4 4

/-- `Pack8` (R173): four low bytes, least significant first; the cursor advances by 4. The end of the buffer is as
R177 says; `lastRead` and `draws` are the model's (log 2, 9). -/
def Obligations.EightBitRead : Prop :=
  ∀ s : State, Live s → s.outBuf ≠ [] → s.colorDepth = .bits8 →
    ∃ v : Word,
      exec .rdData s = .next
        (if s.outBuf.length ≤ s.ptr + 4
         then { s with outBuf := [], ptr := 0, phase := 0, lastRead := some v, draws := s.draws + 1 }
         else { s with ptr := s.ptr + 4, lastRead := some v, draws := s.draws + 1 }) ∧
      ∀ i : Nat, i < 4 → ∀ q : Pixel, s.outBuf[s.ptr + i]? = some q →
        v.extractLsb' (8 * i) 8 = q.extractLsb' 0 8

/-- `Pack15` (R174, R175): two half-words, the first pixel low (D23), bit 15 of each forced to `outputSetBit15`, the
other bits by `PACK15`, whose default keeps the top five bits of each channel (D22). The end of the buffer is as R177
says; `lastRead` and `draws` are the model's (log 2, 9). -/
def Obligations.FifteenBitRead : Prop :=
  ∀ s : State, Live s → s.outBuf ≠ [] → s.colorDepth = .bits15 →
    ∃ v : Word,
      exec .rdData s = .next
        (if s.outBuf.length ≤ s.ptr + 2
         then { s with outBuf := [], ptr := 0, phase := 0, lastRead := some v, draws := s.draws + 1 }
         else { s with ptr := s.ptr + 2, lastRead := some v, draws := s.draws + 1 }) ∧
      v.getLsbD 15 = s.outputSetBit15 ∧ v.getLsbD 31 = s.outputSetBit15 ∧
      ∀ i : Nat, i < 2 → ∀ q : Pixel, s.outBuf[s.ptr + i]? = some q →
        v.extractLsb' (16 * i) 15 = pack15Bits s.params.pack15 q ∧
        (s.params.pack15 = .rgb555 →
          v.extractLsb' (16 * i) 5 = q.extractLsb' 3 5 ∧ v.extractLsb' (16 * i + 5) 5 = q.extractLsb' 11 5 ∧
          v.extractLsb' (16 * i + 10) 5 = q.extractLsb' 19 5)

/-- `Pack24` (R176): the word and the next phase of each phase, and the cursor that moves at phase 2 only. The end of
the buffer is as R177 says; `lastRead` and `draws` are the model's (log 2, 9). -/
def Obligations.TwentyFourBitReads : Prop :=
  ∀ s : State, Live s → s.outBuf ≠ [] → s.colorDepth = .bits24 →
    ∃ v : Word,
      (s.phase = 0 →
        exec .rdData s = .next
          (if s.outBuf.length ≤ s.ptr
           then { s with outBuf := [], ptr := 0, phase := 0, lastRead := some v, draws := s.draws + 1 }
           else { s with phase := 1, lastRead := some v, draws := s.draws + 1 }) ∧
        (∀ q : Pixel, s.outBuf[s.ptr]? = some q → v.extractLsb' 0 24 = q) ∧
        (∀ q : Pixel, s.outBuf[s.ptr + 1]? = some q → v.extractLsb' 24 8 = q.extractLsb' 0 8)) ∧
      (s.phase = 1 →
        exec .rdData s = .next
          (if s.outBuf.length ≤ s.ptr
           then { s with outBuf := [], ptr := 0, phase := 0, lastRead := some v, draws := s.draws + 1 }
           else { s with phase := 2, lastRead := some v, draws := s.draws + 1 }) ∧
        (∀ q : Pixel, s.outBuf[s.ptr + 1]? = some q → v.extractLsb' 0 16 = q.extractLsb' 8 16) ∧
        (∀ q : Pixel, s.outBuf[s.ptr + 2]? = some q → v.extractLsb' 16 16 = q.extractLsb' 0 16)) ∧
      (s.phase = 2 →
        exec .rdData s = .next
          (if s.outBuf.length ≤ s.ptr + 4
           then { s with outBuf := [], ptr := 0, phase := 0, lastRead := some v, draws := s.draws + 1 }
           else { s with phase := 0, ptr := s.ptr + 4, lastRead := some v, draws := s.draws + 1 }) ∧
        (∀ q : Pixel, s.outBuf[s.ptr + 2]? = some q → v.extractLsb' 0 8 = q.extractLsb' 16 8) ∧
        (∀ q : Pixel, s.outBuf[s.ptr + 3]? = some q → v.extractLsb' 8 24 = q))

/-- Three 24-bit reads carry four pixels: their bytes in address order are the 12 pixel bytes in order (R63, R176). -/
def Obligations.TwentyFourBitRoundTrip : Prop :=
  ∀ (s : State) (pre post : List Pixel) (p0 p1 p2 p3 : Pixel), Live s → s.colorDepth = .bits24 → s.phase = 0 →
    s.outBuf = pre ++ [p0, p1, p2, p3] ++ post → s.ptr = pre.length →
    ∃ (t1 t2 t3 : State) (v1 v2 v3 : Word),
      exec .rdData s = .next t1 ∧ exec .rdData t1 = .next t2 ∧ exec .rdData t2 = .next t3 ∧
      t1.lastRead = some v1 ∧ t2.lastRead = some v2 ∧ t3.lastRead = some v3 ∧
      bytesOfWord v1 ++ bytesOfWord v2 ++ bytesOfWord v3 =
        [p0, p1, p2, p3].flatMap (fun p => [p.extractLsb' 0 8, p.extractLsb' 8 8, p.extractLsb' 16 8]) ∧
      t3.phase = 0 ∧
      (post = [] → t3.outBuf = [] ∧ t3.ptr = 0) ∧
      (post ≠ [] → t3.outBuf = s.outBuf ∧ t3.ptr = s.ptr + 4)

/-- `EndCheck` (R177): after each read, a cursor that reaches the buffer length clears the buffer, the cursor and the
phase, and the flags follow. -/
def Obligations.ReadEndsBuffer : Prop :=
  ∀ s : State, Live s → s.outBuf ≠ [] →
    ∃ t, exec .rdData s = .next t ∧
      (s.outBuf.length ≤ s.ptr + advance s.colorDepth s.phase →
        t.outBuf = [] ∧ t.ptr = 0 ∧ t.phase = 0 ∧
        dataOutFifoEmpty t = true ∧ dataOutRequest t = false ∧
        (commandBusy t = false ↔ s.inQueue = [] ∧ s.decodingActive = false ∧ s.parameterCount = 0)) ∧
      (s.ptr + advance s.colorDepth s.phase < s.outBuf.length →
        t.outBuf = s.outBuf ∧ t.ptr = s.ptr + advance s.colorDepth s.phase)

/-- How many words drain a buffer at each depth (R153): its pixels over 8, 4, 2, or three quarters of them; no fewer
reads clear it. -/
def Obligations.ReadsDrainBuffer : Prop :=
  ∀ s : State, Live s → s.outBuf ≠ [] → s.ptr = 0 → s.phase = 0 → s.outBuf.length % 8 = 0 →
    (∃ t, readN (drainReads s.colorDepth s.outBuf.length) s = .next t ∧
      t.outBuf = [] ∧ t.ptr = 0 ∧ t.phase = 0) ∧
    (∀ m : Nat, m < drainReads s.colorDepth s.outBuf.length →
      ∃ u, readN m s = .next u ∧ u.outBuf = s.outBuf)

/-- `outputSigned` has no effect on the packer (R179). -/
def Obligations.SignedFlagUnusedByPacker : Prop :=
  ∀ (s : State) (b : Bool), Live s →
    ∃ t, exec .rdData s = .next t ∧
      exec .rdData { s with outputSigned := b } = .next { t with outputSigned := b }

/-! ## The decode step -/

/-- A `Tick` while decoding is not active, or while pixels remain, changes nothing (R154, R156). -/
def Obligations.TickWithoutWork : Prop :=
  ∀ (s : State) (k : TickBudget), Live s → s.decodingActive = false ∨ s.outBuf ≠ [] →
    exec (.tick k) s = .next s

/-- A decode step of one word (R154): the head word goes to the engine with the depth, the signed flag and the tables
as they stand (R150, R157), and an emptied queue ends decoding. -/
def Obligations.TickFeedsHeadWord : Prop :=
  ∀ (s : State) (w : Word) (q : List Word), Live s → s.decodingActive = true → s.outBuf = [] →
    s.inQueue = w :: q →
    exec (.tick (.atMost 1)) s = .next
      { s with
        inQueue := q
        engine := (feed s.params s.engine w s.colorDepth s.outputSigned s.tables).estate
        outBuf := (feed s.params s.engine w s.colorDepth s.outputSigned s.tables).pixels
        currentBlock := (feed s.params s.engine w s.colorDepth s.outputSigned s.tables).block
        decodingActive := decide (q ≠ []) }

/-- What any working decode step does (R154): it feeds at least one word and at most `k`, stops at a macroblock or an
empty queue, and writes the queue, the engine, the buffer, the block code and the active flag only. -/
def Obligations.TickDrainsQueue : Prop :=
  ∀ (s : State) (k : TickBudget), Live s → s.decodingActive = true → s.outBuf = [] → s.inQueue ≠ [] →
    k.wellFormed = true →
    ∃ (t : State) (fed : List Word), exec (.tick k) s = .next t ∧
      fed ≠ [] ∧ s.inQueue = fed ++ t.inQueue ∧
      (∀ n, k = .atMost n → fed.length ≤ n) ∧
      (t.inQueue = [] ∨ t.outBuf ≠ [] ∨ k = .atMost fed.length) ∧
      (t.outBuf = [] ∨ t.outBuf.length = mbPixels s.params s.colorDepth) ∧
      (t.decodingActive = true ↔ t.inQueue ≠ []) ∧
      t = { s with inQueue := t.inQueue, engine := t.engine, outBuf := t.outBuf,
                   currentBlock := t.currentBlock, decodingActive := t.decodingActive }

/-- A step of `j + k` words is a step of `j` words and then one of `k` (R155: every run with a finite `k` is a run
with more steps). -/
def Obligations.TickSplits : Prop :=
  ∀ (s : State) (j k : Nat), Live s → 1 ≤ j → 1 ≤ k →
    ∃ u, exec (.tick (.atMost j)) s = .next u ∧
      exec (.tick (.atMost (j + k))) s = exec (.tick (.atMost k)) u

/-- `k = infinity` is every `k` at least the queue's length (R154, R155). -/
def Obligations.UnboundedTick : Prop :=
  ∀ (s : State) (k : Nat), s.inQueue.length ≤ k → exec (.tick .unbounded) s = exec (.tick (.atMost k)) s

/-- The engine's contract (R150, R153): one call gives no pixels or one whole macroblock, whose size is the depth's,
and a block code in 0 to 5. -/
def Obligations.EngineMeetsContract : Prop :=
  ∀ (p : Params) (e : EState) (w : Word) (d : Depth) (sgn : Bool) (t : Tables),
    ((feed p e w d sgn t).pixels = [] ∨
      ((d = .bits4 ∨ d = .bits8) ∧ (feed p e w d sgn t).pixels.length = p.mbPixelsMono) ∨
      ((d = .bits24 ∨ d = .bits15) ∧ (feed p e w d sgn t).pixels.length = p.mbPixelsColor)) ∧
    (feed p e w d sgn t).block.code.toNat ≤ 5

/-- The engine restarts at every DecodeMacroblock and at every full reset (R151), and no instruction but TICK gives it a
state other than its own or `engineInit` (from R28, R151, R154). -/
def Obligations.EngineRestarts : Prop :=
  ∀ s : State, Live s →
    (∀ (d : Depth) (sgn b15 : Bool) (ig : BitVec 9) (n : BitVec 16),
      ∃ t, exec (.decodeMb d sgn b15 ig n) s = .next t ∧ t.engine = engineInit) ∧
    (∀ (enIn enOut : Bool) (ig : BitVec 29),
      ∃ t, exec (.wrCtrl true enIn enOut ig) s = .next t ∧ t.engine = engineInit) ∧
    (∀ (i : Instr) (t : State), exec i s = .next t →
      t.engine = s.engine ∨ t.engine = engineInit ∨ ∃ k, i = .tick k)

/-! ## Whole-machine rules -/

/-- Two full resets in a row leave what one leaves, and the Table Store as it was (R231, R232). -/
def Obligations.ResetIsIdempotent : Prop :=
  ∀ (s : State) (enIn enOut : Bool) (ig ig' : BitVec 29), Live s →
    ∃ t, exec (.wrCtrl true enIn enOut ig) s = .next t ∧ exec (.wrCtrl true enIn enOut ig') t = .next t ∧
      t.tables = s.tables

/-- A full reset leaves every state idle, whatever command was in progress, with the reset Status word (R131, R230,
R240; the word is the spec's decision D7). -/
def Obligations.ResetAbandonsCommand : Prop :=
  ∀ (s : State) (enIn enOut : Bool) (ig : BitVec 29), Live s → s.params.Valid →
    ∃ t, exec (.wrCtrl true enIn enOut ig) s = .next t ∧ stage t = .idle ∧
      statusWord t = if enIn then 0x90040000 else 0x80040000

/-- The Table Store changes only by an accepted parameter word of a table load (R24, R157, R231). -/
def Obligations.TableStoreWriters : Prop :=
  ∀ s t : State, step s = .next t → t.tables ≠ s.tables →
    ∃ (w : Word) (rest : List HostOp), s.pending = portWrite 0 w :: rest ∧
      commandBusy s = true ∧ s.parameterCount ≠ 0 ∧ TableLoad s

/-- No instruction and no step writes the parameters of R5, and no step changes the order of the operations still
pending (R4, R5). -/
def Obligations.ParametersNeverWritten : Prop :=
  (∀ (i : Instr) (s t : State), exec i s = .next t → t.params = s.params ∧ t.pending = s.pending) ∧
  (∀ s t : State, step s = .next t → t.params = s.params ∧ t.pending = s.pending.tail)

/-- The depth and the bit-15 flag cannot change while pixels remain (R175, R180). -/
def Obligations.DepthFixedWhilePixelsRemain : Prop :=
  ∀ s t : State, step s = .next t → s.outBuf ≠ [] → t.outBuf ≠ [] →
    t.colorDepth = s.colorDepth ∧ t.outputSetBit15 = s.outputSetBit15

/-- The dispatcher's sequencing (R131): what a data-port write is in each state, and that only a DecodeMacroblock
drains (R125). -/
def Obligations.SequencingStates : Prop :=
  ∀ (s : State) (w : Word) (rest : List HostOp), Live s → s.pending = portWrite 0 w :: rest →
    (stage s = .idle → step s = exec (decodeCommand w) { s with pending := rest }) ∧
    (∀ c, stage s = .receiving c →
      c = s.command ∧ step s = exec (decodeParam c w) { s with pending := rest }) ∧
    (stage s = .draining → step s = .next { s with pending := rest, fault := some .excessParameter }) ∧
    (stage s = .draining → BlockInv s → s.command = .decodeMacroblock)

/-- A parameter word under None cannot arise (R129). -/
def Obligations.ParamNoneUnreachable : Prop :=
  ∀ (s : State) (op : HostOp) (w : Word), BlockInv s → decode (writeMode s) op ≠ .ok (.paramNone w)

/-- A table load never faults, and its words never pass the table bounds (R125, R127, R202). -/
def Obligations.TableLoadNeverFaults : Prop :=
  ∀ (s : State) (w : Word) (rest : List HostOp), BlockInv s → Live s → TableLoad s →
    s.pending = portWrite 0 w :: rest →
    (commandBusy s = true → s.cnt < 32) ∧ ∃ t, step s = .next t ∧ Live t

/-- A DMA collaborator that keeps its contract never raises a model fault (R105). -/
def Obligations.DmaContractNeverFaults : Prop :=
  ∀ (s : State) (op : HostOp) (rest : List HostOp), BlockInv s → Live s → s.pending = op :: rest → DmaOp s op →
    ∃ t, step s = .next t ∧ Live t

/-- A status poll changes no run (R67, R242): with one more status read in front, the same operations lead to the same
outcome but for the value the latest read returned. -/
def Obligations.PollChangesNoRun : Prop :=
  ∀ (s : State) (n : Nat), Live s →
    SameButRead (runSteps (n + 1) { s with pending := .busRead 4 4 :: s.pending }) (runSteps n s)

/-- A block that drains can always finish (R131, R239): some run of decode steps and data-port reads leads to idle. -/
def Obligations.DrainingReachesIdle : Prop :=
  ∀ s : State, BlockInv s → Live s → stage s = .draining →
    ∃ ops : List HostOp, (∀ op ∈ ops, op = .tick .unbounded ∨ op = .busRead 0 4) ∧
      ∃ t, runSteps ops.length { s with pending := ops } = .next t ∧ stage t = .idle

/-- The quantisation-table round trip (R122, R127): a SetQuantTable command and its 16 or 32 words fill exactly the
luma table, or both tables, in the parameter's byte order, and leave the block idle. -/
def Obligations.QuantLoadFillsTables : Prop :=
  ∀ (s : State) (w : Word) (ws : List Word) (rest : List HostOp), Live s → Idle s →
    w.extractLsb' 29 3 = 2 → ws.length = (if w.getLsbD 0 then 32 else 16) →
    s.pending = portWrite 0 w :: (ws.map (portWrite 0) ++ rest) →
    ∃ t, runSteps (1 + ws.length) s = .next t ∧ t.pending = rest ∧ Live t ∧ Idle t ∧
      t.command = .setQuantTable ∧ t.tables.idct = s.tables.idct ∧
      ∀ (k : Nat) (hk : k < 64),
        t.tables.lumaQ[k] = quantByte s.params.quantByteOrder (ws.getD (k / 4) 0) (k % 4) ∧
        t.tables.chromaQ[k] =
          if w.getLsbD 0 then quantByte s.params.quantByteOrder (ws.getD (16 + k / 4) 0) (k % 4)
          else s.tables.chromaQ[k]

/-- The coefficient-table load (R123, R128): a SetIDCT command and its 32 words fill slots 0 to 63 exactly. -/
def Obligations.IdctLoadFillsTable : Prop :=
  ∀ (s : State) (w : Word) (ws : List Word) (rest : List HostOp), Live s → Idle s →
    w.extractLsb' 29 3 = 3 → ws.length = 32 →
    s.pending = portWrite 0 w :: (ws.map (portWrite 0) ++ rest) →
    ∃ t, runSteps 33 s = .next t ∧ t.pending = rest ∧ Live t ∧ Idle t ∧ t.command = .setIdct ∧
      t.tables.lumaQ = s.tables.lumaQ ∧ t.tables.chromaQ = s.tables.chromaQ ∧
      ∀ (k : Nat) (hk : k < 64),
        t.tables.idct[k] =
          if k % 2 = 0 then (idctHalves s.params.idctHalfOrder (ws.getD (k / 2) 0)).1
          else (idctHalves s.params.idctHalfOrder (ws.getD (k / 2) 0)).2

/-! ## Encodings -/

/-- Every well-formed instruction is read back from the operation that carries it, in its mode (R80 to R88, R94). -/
def Obligations.DecodeOfEncode : Prop :=
  ∀ i : Instr, i.wellFormed = true → decode i.mode (encode i) = .ok i

/-- Every operation the decoder takes is the one its instruction encodes to, so no bit of it is dropped, and the
instruction is well-formed (R82 to R85, R88, R90). -/
def Obligations.EncodeOfDecode : Prop :=
  ∀ (m : Mode) (op : HostOp) (i : Instr), decode m op = .ok i → encode i = op ∧ i.wellFormed = true

/-- The length of the stream a command word opens is one more than the count its dispatch leaves (R87). -/
def Obligations.StreamLengthIsCount : Prop :=
  ∀ (s : State) (w : Word), Live s → Idle s →
    ∃ t, exec (.wrData w) s = .next t ∧ streamLength w = 1 + t.parameterCount.toNat

/-- The pseudo-instructions stand for the instructions of R93. -/
def Obligations.PseudoInstructions : Prop :=
  (∀ i o, decode .port (Pseudo.reset i o).expand = .ok (.wrCtrl true i o 0)) ∧
  (∀ i o, decode .port (Pseudo.ctrl i o).expand = .ok (.wrCtrl false i o 0)) ∧
  (∀ d sgn b15 n, decode .command (Pseudo.decode d sgn b15 n).expand = .ok (.decodeMb d sgn b15 0 n)) ∧
  (∀ c, decode .command (Pseudo.quant c).expand = .ok (.setQuant 0 c)) ∧
  decode .command Pseudo.idct.expand = .ok (.setIdct 0) ∧
  decode .command Pseudo.nopCmd.expand = .ok (.nopCmd0 0)

/-- Words written out from the spec's encodings and examples decode to what they stand for (R82 to R85, R38, R93). -/
def Obligations.KnownWordsDecode : Prop :=
  decode .command (.busWrite 0 [0x60, 0x00, 0x00, 0x3A]) = .ok (.decodeMb .bits15 false true 0 96) ∧
  decode .command (.busWrite 0 [0x01, 0x00, 0x00, 0x40]) = .ok (.setQuant 0 true) ∧
  decode .command (.busWrite 0 [0xFF, 0xFF, 0xFF, 0x7F]) = .ok (.setIdct 0x1FFFFFFF) ∧
  decode .command (.busWrite 0 [0xFF, 0xFF, 0xFF, 0xFF]) = .ok (.nopCmd7 0x1FFFFFFF) ∧
  decode .port (.busWrite 4 [0x00, 0x00, 0x00, 0xE0]) = .ok (.wrCtrl true true true 0)

/-- The window (R60): offset 0 at the base, offset 4 four bytes on, eight bytes in all, wherever the base is. -/
def Obligations.WindowOffsets : Prop :=
  ∀ (p : Params) (addr : Nat),
    (∀ off : Nat, windowOffset p addr = some off ↔ off < 8 ∧ addr = p.mdecBase + off) ∧
    (windowOffset p addr = none ↔ addr < p.mdecBase ∨ p.mdecBase + 8 ≤ addr)
end

