-- ==== Sys2Proof/Laws/State.lean ====
section
/-! SUPPORT. One lemma per field of State for each shared update of Machine/Ops.lean. -/
namespace Sys2Proof.Machine

@[simp] theorem raise_command (m : ModelFault) (s : State) : (raise m s).command = s.command := rfl
@[simp] theorem raise_colorDepth (m : ModelFault) (s : State) : (raise m s).colorDepth = s.colorDepth := rfl
@[simp] theorem raise_outputSigned (m : ModelFault) (s : State) : (raise m s).outputSigned = s.outputSigned := rfl
@[simp] theorem raise_outputSetBit15 (m : ModelFault) (s : State) : (raise m s).outputSetBit15 = s.outputSetBit15 := rfl
@[simp] theorem raise_parameterCount (m : ModelFault) (s : State) : (raise m s).parameterCount = s.parameterCount := rfl
@[simp] theorem raise_currentBlock (m : ModelFault) (s : State) : (raise m s).currentBlock = s.currentBlock := rfl
@[simp] theorem raise_enableDataIn (m : ModelFault) (s : State) : (raise m s).enableDataIn = s.enableDataIn := rfl
@[simp] theorem raise_enableDataOut (m : ModelFault) (s : State) : (raise m s).enableDataOut = s.enableDataOut := rfl
@[simp] theorem raise_tables (m : ModelFault) (s : State) : (raise m s).tables = s.tables := rfl
@[simp] theorem raise_cnt (m : ModelFault) (s : State) : (raise m s).cnt = s.cnt := rfl
@[simp] theorem raise_inQueue (m : ModelFault) (s : State) : (raise m s).inQueue = s.inQueue := rfl
@[simp] theorem raise_decodingActive (m : ModelFault) (s : State) : (raise m s).decodingActive = s.decodingActive := rfl
@[simp] theorem raise_engine (m : ModelFault) (s : State) : (raise m s).engine = s.engine := rfl
@[simp] theorem raise_outBuf (m : ModelFault) (s : State) : (raise m s).outBuf = s.outBuf := rfl
@[simp] theorem raise_ptr (m : ModelFault) (s : State) : (raise m s).ptr = s.ptr := rfl
@[simp] theorem raise_phase (m : ModelFault) (s : State) : (raise m s).phase = s.phase := rfl
@[simp] theorem raise_fault (m : ModelFault) (s : State) : (raise m s).fault = some m := rfl
@[simp] theorem raise_params (m : ModelFault) (s : State) : (raise m s).params = s.params := rfl
@[simp] theorem raise_pending (m : ModelFault) (s : State) : (raise m s).pending = s.pending := rfl
@[simp] theorem raise_lastRead (m : ModelFault) (s : State) : (raise m s).lastRead = s.lastRead := rfl
@[simp] theorem raise_draws (m : ModelFault) (s : State) : (raise m s).draws = s.draws := rfl

@[simp] theorem returnRead_command (v : Word) (s : State) : (returnRead v s).command = s.command := rfl
@[simp] theorem returnRead_colorDepth (v : Word) (s : State) : (returnRead v s).colorDepth = s.colorDepth := rfl
@[simp] theorem returnRead_outputSigned (v : Word) (s : State) : (returnRead v s).outputSigned = s.outputSigned := rfl
@[simp] theorem returnRead_outputSetBit15 (v : Word) (s : State) : (returnRead v s).outputSetBit15 = s.outputSetBit15 := rfl
@[simp] theorem returnRead_parameterCount (v : Word) (s : State) : (returnRead v s).parameterCount = s.parameterCount := rfl
@[simp] theorem returnRead_currentBlock (v : Word) (s : State) : (returnRead v s).currentBlock = s.currentBlock := rfl
@[simp] theorem returnRead_enableDataIn (v : Word) (s : State) : (returnRead v s).enableDataIn = s.enableDataIn := rfl
@[simp] theorem returnRead_enableDataOut (v : Word) (s : State) : (returnRead v s).enableDataOut = s.enableDataOut := rfl
@[simp] theorem returnRead_tables (v : Word) (s : State) : (returnRead v s).tables = s.tables := rfl
@[simp] theorem returnRead_cnt (v : Word) (s : State) : (returnRead v s).cnt = s.cnt := rfl
@[simp] theorem returnRead_inQueue (v : Word) (s : State) : (returnRead v s).inQueue = s.inQueue := rfl
@[simp] theorem returnRead_decodingActive (v : Word) (s : State) : (returnRead v s).decodingActive = s.decodingActive := rfl
@[simp] theorem returnRead_engine (v : Word) (s : State) : (returnRead v s).engine = s.engine := rfl
@[simp] theorem returnRead_outBuf (v : Word) (s : State) : (returnRead v s).outBuf = s.outBuf := rfl
@[simp] theorem returnRead_ptr (v : Word) (s : State) : (returnRead v s).ptr = s.ptr := rfl
@[simp] theorem returnRead_phase (v : Word) (s : State) : (returnRead v s).phase = s.phase := rfl
@[simp] theorem returnRead_fault (v : Word) (s : State) : (returnRead v s).fault = s.fault := rfl
@[simp] theorem returnRead_params (v : Word) (s : State) : (returnRead v s).params = s.params := rfl
@[simp] theorem returnRead_pending (v : Word) (s : State) : (returnRead v s).pending = s.pending := rfl
@[simp] theorem returnRead_lastRead (v : Word) (s : State) : (returnRead v s).lastRead = some v := rfl
@[simp] theorem returnRead_draws (v : Word) (s : State) : (returnRead v s).draws = s.draws := rfl

@[simp] theorem withPending_command (r : List HostOp) (s : State) : (withPending r s).command = s.command := rfl
@[simp] theorem withPending_colorDepth (r : List HostOp) (s : State) : (withPending r s).colorDepth = s.colorDepth := rfl
@[simp] theorem withPending_outputSigned (r : List HostOp) (s : State) : (withPending r s).outputSigned = s.outputSigned := rfl
@[simp] theorem withPending_outputSetBit15 (r : List HostOp) (s : State) : (withPending r s).outputSetBit15 = s.outputSetBit15 := rfl
@[simp] theorem withPending_parameterCount (r : List HostOp) (s : State) : (withPending r s).parameterCount = s.parameterCount := rfl
@[simp] theorem withPending_currentBlock (r : List HostOp) (s : State) : (withPending r s).currentBlock = s.currentBlock := rfl
@[simp] theorem withPending_enableDataIn (r : List HostOp) (s : State) : (withPending r s).enableDataIn = s.enableDataIn := rfl
@[simp] theorem withPending_enableDataOut (r : List HostOp) (s : State) : (withPending r s).enableDataOut = s.enableDataOut := rfl
@[simp] theorem withPending_tables (r : List HostOp) (s : State) : (withPending r s).tables = s.tables := rfl
@[simp] theorem withPending_cnt (r : List HostOp) (s : State) : (withPending r s).cnt = s.cnt := rfl
@[simp] theorem withPending_inQueue (r : List HostOp) (s : State) : (withPending r s).inQueue = s.inQueue := rfl
@[simp] theorem withPending_decodingActive (r : List HostOp) (s : State) : (withPending r s).decodingActive = s.decodingActive := rfl
@[simp] theorem withPending_engine (r : List HostOp) (s : State) : (withPending r s).engine = s.engine := rfl
@[simp] theorem withPending_outBuf (r : List HostOp) (s : State) : (withPending r s).outBuf = s.outBuf := rfl
@[simp] theorem withPending_ptr (r : List HostOp) (s : State) : (withPending r s).ptr = s.ptr := rfl
@[simp] theorem withPending_phase (r : List HostOp) (s : State) : (withPending r s).phase = s.phase := rfl
@[simp] theorem withPending_fault (r : List HostOp) (s : State) : (withPending r s).fault = s.fault := rfl
@[simp] theorem withPending_params (r : List HostOp) (s : State) : (withPending r s).params = s.params := rfl
@[simp] theorem withPending_pending (r : List HostOp) (s : State) : (withPending r s).pending = r := rfl
@[simp] theorem withPending_lastRead (r : List HostOp) (s : State) : (withPending r s).lastRead = s.lastRead := rfl
@[simp] theorem withPending_draws (r : List HostOp) (s : State) : (withPending r s).draws = s.draws := rfl

@[simp] theorem beginDispatch_command (s : State) : (beginDispatch s).command = s.command := rfl
@[simp] theorem beginDispatch_colorDepth (s : State) : (beginDispatch s).colorDepth = s.colorDepth := rfl
@[simp] theorem beginDispatch_outputSigned (s : State) : (beginDispatch s).outputSigned = s.outputSigned := rfl
@[simp] theorem beginDispatch_outputSetBit15 (s : State) : (beginDispatch s).outputSetBit15 = s.outputSetBit15 := rfl
@[simp] theorem beginDispatch_parameterCount (s : State) : (beginDispatch s).parameterCount = s.parameterCount := rfl
@[simp] theorem beginDispatch_currentBlock (s : State) : (beginDispatch s).currentBlock = s.currentBlock := rfl
@[simp] theorem beginDispatch_enableDataIn (s : State) : (beginDispatch s).enableDataIn = s.enableDataIn := rfl
@[simp] theorem beginDispatch_enableDataOut (s : State) : (beginDispatch s).enableDataOut = s.enableDataOut := rfl
@[simp] theorem beginDispatch_tables (s : State) : (beginDispatch s).tables = s.tables := rfl
@[simp] theorem beginDispatch_cnt (s : State) : (beginDispatch s).cnt = 0 := rfl
@[simp] theorem beginDispatch_inQueue (s : State) : (beginDispatch s).inQueue = [] := rfl
@[simp] theorem beginDispatch_decodingActive (s : State) : (beginDispatch s).decodingActive = s.decodingActive := rfl
@[simp] theorem beginDispatch_engine (s : State) : (beginDispatch s).engine = s.engine := rfl
@[simp] theorem beginDispatch_outBuf (s : State) : (beginDispatch s).outBuf = s.outBuf := rfl
@[simp] theorem beginDispatch_ptr (s : State) : (beginDispatch s).ptr = s.ptr := rfl
@[simp] theorem beginDispatch_phase (s : State) : (beginDispatch s).phase = s.phase := rfl
@[simp] theorem beginDispatch_fault (s : State) : (beginDispatch s).fault = s.fault := rfl
@[simp] theorem beginDispatch_params (s : State) : (beginDispatch s).params = s.params := rfl
@[simp] theorem beginDispatch_pending (s : State) : (beginDispatch s).pending = s.pending := rfl
@[simp] theorem beginDispatch_lastRead (s : State) : (beginDispatch s).lastRead = s.lastRead := rfl
@[simp] theorem beginDispatch_draws (s : State) : (beginDispatch s).draws = s.draws := rfl

@[simp] theorem dispatchDecodeMb_command (d : Depth) (g b : Bool) (n : BitVec 16) (s : State) : (dispatchDecodeMb d g b n s).command = .decodeMacroblock := rfl
@[simp] theorem dispatchDecodeMb_colorDepth (d : Depth) (g b : Bool) (n : BitVec 16) (s : State) : (dispatchDecodeMb d g b n s).colorDepth = d := rfl
@[simp] theorem dispatchDecodeMb_outputSigned (d : Depth) (g b : Bool) (n : BitVec 16) (s : State) : (dispatchDecodeMb d g b n s).outputSigned = g := rfl
@[simp] theorem dispatchDecodeMb_outputSetBit15 (d : Depth) (g b : Bool) (n : BitVec 16) (s : State) : (dispatchDecodeMb d g b n s).outputSetBit15 = b := rfl
@[simp] theorem dispatchDecodeMb_parameterCount (d : Depth) (g b : Bool) (n : BitVec 16) (s : State) : (dispatchDecodeMb d g b n s).parameterCount = n := rfl
@[simp] theorem dispatchDecodeMb_currentBlock (d : Depth) (g b : Bool) (n : BitVec 16) (s : State) : (dispatchDecodeMb d g b n s).currentBlock = startBlock s.params d := rfl
@[simp] theorem dispatchDecodeMb_enableDataIn (d : Depth) (g b : Bool) (n : BitVec 16) (s : State) : (dispatchDecodeMb d g b n s).enableDataIn = s.enableDataIn := rfl
@[simp] theorem dispatchDecodeMb_enableDataOut (d : Depth) (g b : Bool) (n : BitVec 16) (s : State) : (dispatchDecodeMb d g b n s).enableDataOut = s.enableDataOut := rfl
@[simp] theorem dispatchDecodeMb_tables (d : Depth) (g b : Bool) (n : BitVec 16) (s : State) : (dispatchDecodeMb d g b n s).tables = s.tables := rfl
@[simp] theorem dispatchDecodeMb_cnt (d : Depth) (g b : Bool) (n : BitVec 16) (s : State) : (dispatchDecodeMb d g b n s).cnt = s.cnt := rfl
@[simp] theorem dispatchDecodeMb_inQueue (d : Depth) (g b : Bool) (n : BitVec 16) (s : State) : (dispatchDecodeMb d g b n s).inQueue = s.inQueue := rfl
@[simp] theorem dispatchDecodeMb_decodingActive (d : Depth) (g b : Bool) (n : BitVec 16) (s : State) : (dispatchDecodeMb d g b n s).decodingActive = false := rfl
@[simp] theorem dispatchDecodeMb_engine (d : Depth) (g b : Bool) (n : BitVec 16) (s : State) : (dispatchDecodeMb d g b n s).engine = engineInit := rfl
@[simp] theorem dispatchDecodeMb_outBuf (d : Depth) (g b : Bool) (n : BitVec 16) (s : State) : (dispatchDecodeMb d g b n s).outBuf = [] := rfl
@[simp] theorem dispatchDecodeMb_ptr (d : Depth) (g b : Bool) (n : BitVec 16) (s : State) : (dispatchDecodeMb d g b n s).ptr = 0 := rfl
@[simp] theorem dispatchDecodeMb_phase (d : Depth) (g b : Bool) (n : BitVec 16) (s : State) : (dispatchDecodeMb d g b n s).phase = 0 := rfl
@[simp] theorem dispatchDecodeMb_fault (d : Depth) (g b : Bool) (n : BitVec 16) (s : State) : (dispatchDecodeMb d g b n s).fault = s.fault := rfl
@[simp] theorem dispatchDecodeMb_params (d : Depth) (g b : Bool) (n : BitVec 16) (s : State) : (dispatchDecodeMb d g b n s).params = s.params := rfl
@[simp] theorem dispatchDecodeMb_pending (d : Depth) (g b : Bool) (n : BitVec 16) (s : State) : (dispatchDecodeMb d g b n s).pending = s.pending := rfl
@[simp] theorem dispatchDecodeMb_lastRead (d : Depth) (g b : Bool) (n : BitVec 16) (s : State) : (dispatchDecodeMb d g b n s).lastRead = s.lastRead := rfl
@[simp] theorem dispatchDecodeMb_draws (d : Depth) (g b : Bool) (n : BitVec 16) (s : State) : (dispatchDecodeMb d g b n s).draws = s.draws := rfl

@[simp] theorem dispatchSetQuant_command (c : Bool) (s : State) : (dispatchSetQuant c s).command = .setQuantTable := rfl
@[simp] theorem dispatchSetQuant_colorDepth (c : Bool) (s : State) : (dispatchSetQuant c s).colorDepth = s.colorDepth := rfl
@[simp] theorem dispatchSetQuant_outputSigned (c : Bool) (s : State) : (dispatchSetQuant c s).outputSigned = s.outputSigned := rfl
@[simp] theorem dispatchSetQuant_outputSetBit15 (c : Bool) (s : State) : (dispatchSetQuant c s).outputSetBit15 = s.outputSetBit15 := rfl
@[simp] theorem dispatchSetQuant_parameterCount (c : Bool) (s : State) : (dispatchSetQuant c s).parameterCount = if c then 32 else 16 := rfl
@[simp] theorem dispatchSetQuant_currentBlock (c : Bool) (s : State) : (dispatchSetQuant c s).currentBlock = s.currentBlock := rfl
@[simp] theorem dispatchSetQuant_enableDataIn (c : Bool) (s : State) : (dispatchSetQuant c s).enableDataIn = s.enableDataIn := rfl
@[simp] theorem dispatchSetQuant_enableDataOut (c : Bool) (s : State) : (dispatchSetQuant c s).enableDataOut = s.enableDataOut := rfl
@[simp] theorem dispatchSetQuant_tables (c : Bool) (s : State) : (dispatchSetQuant c s).tables = s.tables := rfl
@[simp] theorem dispatchSetQuant_cnt (c : Bool) (s : State) : (dispatchSetQuant c s).cnt = s.cnt := rfl
@[simp] theorem dispatchSetQuant_inQueue (c : Bool) (s : State) : (dispatchSetQuant c s).inQueue = s.inQueue := rfl
@[simp] theorem dispatchSetQuant_decodingActive (c : Bool) (s : State) : (dispatchSetQuant c s).decodingActive = s.decodingActive := rfl
@[simp] theorem dispatchSetQuant_engine (c : Bool) (s : State) : (dispatchSetQuant c s).engine = s.engine := rfl
@[simp] theorem dispatchSetQuant_outBuf (c : Bool) (s : State) : (dispatchSetQuant c s).outBuf = s.outBuf := rfl
@[simp] theorem dispatchSetQuant_ptr (c : Bool) (s : State) : (dispatchSetQuant c s).ptr = s.ptr := rfl
@[simp] theorem dispatchSetQuant_phase (c : Bool) (s : State) : (dispatchSetQuant c s).phase = s.phase := rfl
@[simp] theorem dispatchSetQuant_fault (c : Bool) (s : State) : (dispatchSetQuant c s).fault = s.fault := rfl
@[simp] theorem dispatchSetQuant_params (c : Bool) (s : State) : (dispatchSetQuant c s).params = s.params := rfl
@[simp] theorem dispatchSetQuant_pending (c : Bool) (s : State) : (dispatchSetQuant c s).pending = s.pending := rfl
@[simp] theorem dispatchSetQuant_lastRead (c : Bool) (s : State) : (dispatchSetQuant c s).lastRead = s.lastRead := rfl
@[simp] theorem dispatchSetQuant_draws (c : Bool) (s : State) : (dispatchSetQuant c s).draws = s.draws := rfl

@[simp] theorem dispatchSetIdct_command (s : State) : (dispatchSetIdct s).command = .setIdct := rfl
@[simp] theorem dispatchSetIdct_colorDepth (s : State) : (dispatchSetIdct s).colorDepth = s.colorDepth := rfl
@[simp] theorem dispatchSetIdct_outputSigned (s : State) : (dispatchSetIdct s).outputSigned = s.outputSigned := rfl
@[simp] theorem dispatchSetIdct_outputSetBit15 (s : State) : (dispatchSetIdct s).outputSetBit15 = s.outputSetBit15 := rfl
@[simp] theorem dispatchSetIdct_parameterCount (s : State) : (dispatchSetIdct s).parameterCount = 32 := rfl
@[simp] theorem dispatchSetIdct_currentBlock (s : State) : (dispatchSetIdct s).currentBlock = s.currentBlock := rfl
@[simp] theorem dispatchSetIdct_enableDataIn (s : State) : (dispatchSetIdct s).enableDataIn = s.enableDataIn := rfl
@[simp] theorem dispatchSetIdct_enableDataOut (s : State) : (dispatchSetIdct s).enableDataOut = s.enableDataOut := rfl
@[simp] theorem dispatchSetIdct_tables (s : State) : (dispatchSetIdct s).tables = s.tables := rfl
@[simp] theorem dispatchSetIdct_cnt (s : State) : (dispatchSetIdct s).cnt = s.cnt := rfl
@[simp] theorem dispatchSetIdct_inQueue (s : State) : (dispatchSetIdct s).inQueue = s.inQueue := rfl
@[simp] theorem dispatchSetIdct_decodingActive (s : State) : (dispatchSetIdct s).decodingActive = s.decodingActive := rfl
@[simp] theorem dispatchSetIdct_engine (s : State) : (dispatchSetIdct s).engine = s.engine := rfl
@[simp] theorem dispatchSetIdct_outBuf (s : State) : (dispatchSetIdct s).outBuf = s.outBuf := rfl
@[simp] theorem dispatchSetIdct_ptr (s : State) : (dispatchSetIdct s).ptr = s.ptr := rfl
@[simp] theorem dispatchSetIdct_phase (s : State) : (dispatchSetIdct s).phase = s.phase := rfl
@[simp] theorem dispatchSetIdct_fault (s : State) : (dispatchSetIdct s).fault = s.fault := rfl
@[simp] theorem dispatchSetIdct_params (s : State) : (dispatchSetIdct s).params = s.params := rfl
@[simp] theorem dispatchSetIdct_pending (s : State) : (dispatchSetIdct s).pending = s.pending := rfl
@[simp] theorem dispatchSetIdct_lastRead (s : State) : (dispatchSetIdct s).lastRead = s.lastRead := rfl
@[simp] theorem dispatchSetIdct_draws (s : State) : (dispatchSetIdct s).draws = s.draws := rfl

@[simp] theorem dispatchNone_command (s : State) : (dispatchNone s).command = .none := rfl
@[simp] theorem dispatchNone_colorDepth (s : State) : (dispatchNone s).colorDepth = s.colorDepth := rfl
@[simp] theorem dispatchNone_outputSigned (s : State) : (dispatchNone s).outputSigned = s.outputSigned := rfl
@[simp] theorem dispatchNone_outputSetBit15 (s : State) : (dispatchNone s).outputSetBit15 = s.outputSetBit15 := rfl
@[simp] theorem dispatchNone_parameterCount (s : State) : (dispatchNone s).parameterCount = s.parameterCount := rfl
@[simp] theorem dispatchNone_currentBlock (s : State) : (dispatchNone s).currentBlock = s.currentBlock := rfl
@[simp] theorem dispatchNone_enableDataIn (s : State) : (dispatchNone s).enableDataIn = s.enableDataIn := rfl
@[simp] theorem dispatchNone_enableDataOut (s : State) : (dispatchNone s).enableDataOut = s.enableDataOut := rfl
@[simp] theorem dispatchNone_tables (s : State) : (dispatchNone s).tables = s.tables := rfl
@[simp] theorem dispatchNone_cnt (s : State) : (dispatchNone s).cnt = s.cnt := rfl
@[simp] theorem dispatchNone_inQueue (s : State) : (dispatchNone s).inQueue = s.inQueue := rfl
@[simp] theorem dispatchNone_decodingActive (s : State) : (dispatchNone s).decodingActive = s.decodingActive := rfl
@[simp] theorem dispatchNone_engine (s : State) : (dispatchNone s).engine = s.engine := rfl
@[simp] theorem dispatchNone_outBuf (s : State) : (dispatchNone s).outBuf = s.outBuf := rfl
@[simp] theorem dispatchNone_ptr (s : State) : (dispatchNone s).ptr = s.ptr := rfl
@[simp] theorem dispatchNone_phase (s : State) : (dispatchNone s).phase = s.phase := rfl
@[simp] theorem dispatchNone_fault (s : State) : (dispatchNone s).fault = s.fault := rfl
@[simp] theorem dispatchNone_params (s : State) : (dispatchNone s).params = s.params := rfl
@[simp] theorem dispatchNone_pending (s : State) : (dispatchNone s).pending = s.pending := rfl
@[simp] theorem dispatchNone_lastRead (s : State) : (dispatchNone s).lastRead = s.lastRead := rfl
@[simp] theorem dispatchNone_draws (s : State) : (dispatchNone s).draws = s.draws := rfl

@[simp] theorem fullReset_command (s : State) : (fullReset s).command = .none := rfl
@[simp] theorem fullReset_colorDepth (s : State) : (fullReset s).colorDepth = .bits4 := rfl
@[simp] theorem fullReset_outputSigned (s : State) : (fullReset s).outputSigned = false := rfl
@[simp] theorem fullReset_outputSetBit15 (s : State) : (fullReset s).outputSetBit15 = false := rfl
@[simp] theorem fullReset_parameterCount (s : State) : (fullReset s).parameterCount = 0 := rfl
@[simp] theorem fullReset_currentBlock (s : State) : (fullReset s).currentBlock = .cr := rfl
@[simp] theorem fullReset_enableDataIn (s : State) : (fullReset s).enableDataIn = s.enableDataIn := rfl
@[simp] theorem fullReset_enableDataOut (s : State) : (fullReset s).enableDataOut = s.enableDataOut := rfl
@[simp] theorem fullReset_tables (s : State) : (fullReset s).tables = s.tables := rfl
@[simp] theorem fullReset_cnt (s : State) : (fullReset s).cnt = 0 := rfl
@[simp] theorem fullReset_inQueue (s : State) : (fullReset s).inQueue = [] := rfl
@[simp] theorem fullReset_decodingActive (s : State) : (fullReset s).decodingActive = false := rfl
@[simp] theorem fullReset_engine (s : State) : (fullReset s).engine = engineInit := rfl
@[simp] theorem fullReset_outBuf (s : State) : (fullReset s).outBuf = [] := rfl
@[simp] theorem fullReset_ptr (s : State) : (fullReset s).ptr = 0 := rfl
@[simp] theorem fullReset_phase (s : State) : (fullReset s).phase = 0 := rfl
@[simp] theorem fullReset_fault (s : State) : (fullReset s).fault = s.fault := rfl
@[simp] theorem fullReset_params (s : State) : (fullReset s).params = s.params := rfl
@[simp] theorem fullReset_pending (s : State) : (fullReset s).pending = s.pending := rfl
@[simp] theorem fullReset_lastRead (s : State) : (fullReset s).lastRead = s.lastRead := rfl
@[simp] theorem fullReset_draws (s : State) : (fullReset s).draws = s.draws := rfl

end Sys2Proof.Machine
end

