-- ==== Sys2Proof/Laws/Ops.lean ====
section
/-! SUPPORT. Each shared operation said once: what `perform`, the parameter check, the end check, the decode loop,
the packer and a step can do. Later proofs cite these and do not unfold the operations. -/
namespace Sys2Proof.Machine

/-! ## perform -/

theorem perform_live {s t : State} (h : Live s) : perform s t = .next t := by
  simp [perform, h]

theorem perform_eq_next {s t u : State} : perform s t = .next u ↔ Live s ∧ u = t := by
  unfold perform Live
  cases hf : s.fault <;> simp [eq_comm]

theorem perform_faulted {s t : State} {m : ModelFault} (h : s.fault = some m) :
    perform s t = .fault (.afterModelFault m) := by
  simp [perform, h]

/-! ## Flags -/

theorem queueFull_iff {s : State} : queueFull s = true ↔ s.inQueue.length = s.params.inFifoDepth := by
  simp [queueFull]

theorem commandBusy_iff {s : State} :
    commandBusy s = true ↔
      s.parameterCount ≠ 0 ∨ s.inQueue ≠ [] ∨ s.decodingActive = true ∨ s.outBuf ≠ [] := by
  have h : (0 < s.parameterCount.toNat) ↔ s.parameterCount ≠ 0 := by
    rw [Nat.pos_iff_ne_zero, not_iff_not, ← BitVec.toNat_inj]
    simp
  simp only [commandBusy, Bool.or_eq_true, decide_eq_true_eq, h, or_assoc]

theorem idle_iff {s : State} :
    Idle s ↔ s.parameterCount = 0 ∧ s.inQueue = [] ∧ s.decodingActive = false ∧ s.outBuf = [] := by
  rw [Idle, ← Bool.not_eq_true, commandBusy_iff]
  simp only [not_or, ne_eq, not_not, Bool.not_eq_true]

theorem dataInFifoFull_iff {s : State} :
    dataInFifoFull s = true ↔
      s.inQueue.length = s.params.inFifoDepth ∨ (s.command ≠ .none ∧ s.parameterCount = 0) := by
  simp [dataInFifoFull, queueFull_iff]

theorem dataInRequest_iff {s : State} :
    dataInRequest s = true ↔ dataInFifoFull s = false ∧ s.enableDataIn = true := by
  simp [dataInRequest]

theorem dataOutRequest_iff {s : State} :
    dataOutRequest s = true ↔ s.outBuf ≠ [] ∧ s.enableDataOut = true := by
  simp [dataOutRequest, dataOutFifoEmpty]

theorem writeMode_idle {s : State} (h : Idle s) : writeMode s = .command := by
  simp [writeMode, h]

theorem writeMode_busy {s : State} (h : commandBusy s = true) : writeMode s = .param s.command := by
  simp [writeMode, h]

@[simp] theorem writeMode_withPending (r : List HostOp) (s : State) :
    writeMode (withPending r s) = writeMode s := rfl

@[simp] theorem commandBusy_withPending (r : List HostOp) (s : State) :
    commandBusy (withPending r s) = commandBusy s := rfl

/-! ## The parameter check -/

/-- The three ways a parameter word ends (R125, R206). -/
theorem acceptParameter_cases (effect : State → State) (s : State) :
    (s.parameterCount = 0 ∧ acceptParameter effect s = raise .excessParameter s) ∨
    (s.parameterCount ≠ 0 ∧ s.command = .decodeMacroblock ∧ s.inQueue.length = s.params.inFifoDepth ∧
      acceptParameter effect s = raise .inFifoOverflow s) ∨
    (s.parameterCount ≠ 0 ∧ ¬(s.command = .decodeMacroblock ∧ s.inQueue.length = s.params.inFifoDepth) ∧
      acceptParameter effect s = effect { s with parameterCount := s.parameterCount - 1 }) := by
  unfold acceptParameter
  by_cases h0 : s.parameterCount = 0
  · exact .inl ⟨h0, by simp [h0]⟩
  · by_cases h1 : s.command = .decodeMacroblock ∧ s.inQueue.length = s.params.inFifoDepth
    · exact .inr (.inl ⟨h0, h1.1, h1.2, by rw [if_neg h0, if_pos (by rwa [queueFull_iff])]⟩)
    · exact .inr (.inr ⟨h0, h1, by rw [if_neg h0, if_neg (by rwa [queueFull_iff])]⟩)

theorem acceptParameter_excess {effect : State → State} {s : State} (h : s.parameterCount = 0) :
    acceptParameter effect s = raise .excessParameter s := by
  simp [acceptParameter, h]

theorem acceptParameter_overflow {effect : State → State} {s : State} (h0 : s.parameterCount ≠ 0)
    (hc : s.command = .decodeMacroblock) (hf : s.inQueue.length = s.params.inFifoDepth) :
    acceptParameter effect s = raise .inFifoOverflow s := by
  rw [acceptParameter, if_neg h0, if_pos ⟨hc, queueFull_iff.2 hf⟩]

theorem acceptParameter_ok {effect : State → State} {s : State} (h0 : s.parameterCount ≠ 0)
    (h1 : ¬(s.command = .decodeMacroblock ∧ s.inQueue.length = s.params.inFifoDepth)) :
    acceptParameter effect s = effect { s with parameterCount := s.parameterCount - 1 } := by
  rw [acceptParameter, if_neg h0, if_neg (by rwa [queueFull_iff])]

/-- The routing only adds to what the common step leaves: the count, the command and the fault record stay. -/
theorem routeWord_frame (c : Command) (w : Word) (s : State) :
    (routeWord c w s).parameterCount = s.parameterCount ∧ (routeWord c w s).command = s.command ∧
    (routeWord c w s).fault = s.fault ∧ (routeWord c w s).params = s.params ∧
    (routeWord c w s).pending = s.pending ∧ (routeWord c w s).engine = s.engine ∧
    (routeWord c w s).outBuf = s.outBuf ∧ (routeWord c w s).colorDepth = s.colorDepth ∧
    (routeWord c w s).outputSetBit15 = s.outputSetBit15 := by
  cases c with
  | decodeMacroblock =>
    simp only [routeWord, dataWord]
    split <;> exact ⟨rfl, rfl, rfl, rfl, rfl, rfl, rfl, rfl, rfl⟩
  | none => exact ⟨rfl, rfl, rfl, rfl, rfl, rfl, rfl, rfl, rfl⟩
  | setQuantTable => exact ⟨rfl, rfl, rfl, rfl, rfl, rfl, rfl, rfl, rfl⟩
  | setIdct => exact ⟨rfl, rfl, rfl, rfl, rfl, rfl, rfl, rfl, rfl⟩

/-! ## The end of the Output Buffer and the packer -/

theorem endCheck_cases (s : State) :
    (s.outBuf.length ≤ s.ptr ∧ endCheck s = { s with outBuf := [], ptr := 0, phase := 0 }) ∨
    (s.ptr < s.outBuf.length ∧ endCheck s = s) := by
  unfold endCheck
  by_cases h : s.outBuf.length ≤ s.ptr
  · exact .inl ⟨h, if_pos h⟩
  · exact .inr ⟨Nat.lt_of_not_le h, if_neg h⟩

/-- The phase after a packing (R176). -/
def nextPhase (d : Depth) (phase : Fin 3) : Fin 3 :=
  match d with
  | .bits24 => if phase = 0 then 1 else if phase = 1 then 2 else 0
  | _ => phase

/-- A packing moves the cursor and the phase and writes nothing else. -/
theorem packWord_state (s : State) :
    (packWord s).2 =
      { s with ptr := s.ptr + advance s.colorDepth s.phase, phase := nextPhase s.colorDepth s.phase } := by
  unfold packWord
  cases hd : s.colorDepth with
  | bits4 => simp [pack4, advance, nextPhase, hd]
  | bits8 => simp [pack8, advance, nextPhase, hd]
  | bits15 => simp [pack15, advance, nextPhase, hd]
  | bits24 =>
    obtain ⟨p, hp⟩ : ∃ p, s.phase = p := ⟨_, rfl⟩
    match p, hp with
    | 0, hp => simp [pack24, advance, nextPhase, hp, hd]
    | 1, hp => simp [pack24, advance, nextPhase, hp, hd]
    | 2, hp => simp [pack24, advance, nextPhase, hp, hd]

/-- What a data-port read of a non-empty buffer does (R171, R177). -/
theorem packRead_cases (s : State) :
    (s.outBuf.length ≤ s.ptr + advance s.colorDepth s.phase ∧
      packRead s = { s with outBuf := [], ptr := 0, phase := 0, draws := s.draws + 1,
                            lastRead := some (packWord s).1 }) ∨
    (s.ptr + advance s.colorDepth s.phase < s.outBuf.length ∧
      packRead s = { s with ptr := s.ptr + advance s.colorDepth s.phase, phase := nextPhase s.colorDepth s.phase,
                            draws := s.draws + 1, lastRead := some (packWord s).1 }) := by
  unfold packRead
  rcases endCheck_cases (packWord s).2 with ⟨h, he⟩ | ⟨h, he⟩
  · refine .inl ⟨by simpa [packWord_state] using h, ?_⟩
    show returnRead _ { endCheck (packWord s).2 with draws := s.draws + 1 } = _
    rw [he, packWord_state]
    rfl
  · refine .inr ⟨by simpa [packWord_state] using h, ?_⟩
    show returnRead _ { endCheck (packWord s).2 with draws := s.draws + 1 } = _
    rw [he, packWord_state]
    rfl

/-! ## The engine and the decode step -/

/-- Clause 2 of the engine's contract (R150): no pixels, or one whole macroblock. -/
theorem feed_pixels (p : Params) (e : EState) (w : Word) (d : Depth) (g : Bool) (t : Tables) :
    (feed p e w d g t).pixels = [] ∨ (feed p e w d g t).pixels.length = mbPixels p d := by
  unfold feed
  cases p.engine with
  | unspecified =>
    simp only [feedUnspecified]
    split
    · exact .inr (by simp)
    · exact .inl rfl
  | test n =>
    simp only [feedTest]
    split
    · exact .inr (by simp)
    · exact .inl rfl

@[simp] theorem feedWord_inQueue (w : Word) (q : List Word) (s : State) : (feedWord w q s).inQueue = q := rfl

@[simp] theorem feedWord_outBuf (w : Word) (q : List Word) (s : State) :
    (feedWord w q s).outBuf =
      s.outBuf ++ (feed s.params s.engine w s.colorDepth s.outputSigned s.tables).pixels := rfl

@[simp] theorem feedWord_decodingActive (w : Word) (q : List Word) (s : State) :
    (feedWord w q s).decodingActive = s.decodingActive := rfl

theorem decodeLoop_nil (n : Nat) {s : State} (h : s.inQueue = []) : decodeLoop n s = s := by
  cases n <;> simp [decodeLoop, h]

theorem decodeLoop_full (n : Nat) {s : State} (h : s.outBuf ≠ []) : decodeLoop n s = s := by
  cases n with
  | zero => rfl
  | succ n => cases hq : s.inQueue <;> simp [decodeLoop, hq, h]

theorem decodeLoop_cons (n : Nat) {s : State} {w : Word} {q : List Word} (hq : s.inQueue = w :: q)
    (ho : s.outBuf = []) : decodeLoop (n + 1) s = decodeLoop n (feedWord w q s) := by
  simp [decodeLoop, hq, ho]

/-- The decode loop writes the queue, the engine, the buffer and the block code only. -/
theorem decodeLoop_frame (n : Nat) (s : State) :
    decodeLoop n s =
      { s with inQueue := (decodeLoop n s).inQueue, engine := (decodeLoop n s).engine,
               outBuf := (decodeLoop n s).outBuf, currentBlock := (decodeLoop n s).currentBlock } := by
  induction n generalizing s with
  | zero => rfl
  | succ n ih =>
    cases hq : s.inQueue with
    | nil => rw [decodeLoop_nil _ hq]
    | cons w q =>
      by_cases ho : s.outBuf = []
      · rw [decodeLoop_cons n hq ho, ih]
        rfl
      · rw [decodeLoop_full _ ho]

/-- The words the loop leaves are the tail of the queue after the words it fed; it stops at the budget, at an empty
queue or at a macroblock. -/
theorem decodeLoop_queue (n : Nat) (s : State) :
    ∃ fed, s.inQueue = fed ++ (decodeLoop n s).inQueue ∧ fed.length ≤ n ∧
      (fed.length = n ∨ (decodeLoop n s).inQueue = [] ∨ (decodeLoop n s).outBuf ≠ []) := by
  induction n generalizing s with
  | zero => exact ⟨[], rfl, Nat.le_refl 0, .inl rfl⟩
  | succ n ih =>
    cases hq : s.inQueue with
    | nil => exact ⟨[], by rw [decodeLoop_nil _ hq, hq]; rfl, Nat.zero_le _, .inr (.inl (by rw [decodeLoop_nil _ hq, hq]))⟩
    | cons w q =>
      by_cases ho : s.outBuf = []
      · obtain ⟨fed, h1, h2, h3⟩ := ih (feedWord w q s)
        rw [decodeLoop_cons n hq ho]
        refine ⟨w :: fed, ?_, by simpa using h2, ?_⟩
        · simp only [feedWord_inQueue] at h1
          rw [List.cons_append, ← h1]
        · rcases h3 with h | h | h
          · exact .inl (by simp [h])
          · exact .inr (.inl h)
          · exact .inr (.inr h)
      · exact ⟨[], by rw [decodeLoop_full _ ho, hq]; rfl, Nat.zero_le _, .inr (.inr (by rw [decodeLoop_full _ ho]; exact ho))⟩

/-- A buffer the loop started empty holds nothing or one macroblock. -/
theorem decodeLoop_outBuf (n : Nat) (s : State) (ho : s.outBuf = []) :
    (decodeLoop n s).outBuf = [] ∨ (decodeLoop n s).outBuf.length = mbPixels s.params s.colorDepth := by
  induction n generalizing s with
  | zero => exact .inl ho
  | succ n ih =>
    cases hq : s.inQueue with
    | nil => exact .inl (by rw [decodeLoop_nil _ hq]; exact ho)
    | cons w q =>
      rw [decodeLoop_cons n hq ho]
      rcases feed_pixels s.params s.engine w s.colorDepth s.outputSigned s.tables with h | h
      · exact ih (feedWord w q s) (by simp [ho, h])
      · by_cases he : (feedWord w q s).outBuf = []
        · exact ih _ he
        · rw [decodeLoop_full _ he]
          exact .inr (by simp [ho, h])

theorem decodeStep_noop {k : TickBudget} {s : State} (h : s.decodingActive = false ∨ s.outBuf ≠ []) :
    decodeStep k s = s := if_pos h

theorem decodeStep_active {k : TickBudget} {s : State} (ha : s.decodingActive = true) (ho : s.outBuf = []) :
    decodeStep k s = settleActive (decodeLoop (tickRounds k s) s) := by
  simp [decodeStep, ha, ho]

/-- Rounds add up. -/
theorem decodeLoop_add (j k : Nat) (s : State) : decodeLoop (j + k) s = decodeLoop k (decodeLoop j s) := by
  induction j generalizing s with
  | zero => simp [decodeLoop]
  | succ n ih =>
    cases hq : s.inQueue with
    | nil => simp [decodeLoop_nil _ hq]
    | cons w q =>
      by_cases ho : s.outBuf = []
      · rw [show n + 1 + k = (n + k) + 1 by omega, decodeLoop_cons _ hq ho, decodeLoop_cons _ hq ho, ih]
      · simp [decodeLoop_full _ ho]

/-- The end of a decode step writes the active flag only. -/
theorem settleActive_frame (s : State) :
    settleActive s = { s with decodingActive := s.decodingActive && decide (s.inQueue ≠ []) } := by
  unfold settleActive
  split <;> simp [*]

/-- A working decode step has at least one round. -/
theorem tickRounds_ne_zero {k : TickBudget} {s : State} (hq : s.inQueue ≠ []) (hk : k.wellFormed = true) :
    tickRounds k s ≠ 0 := by
  cases k with
  | atMost n =>
    simp [TickBudget.wellFormed] at hk
    simp [tickRounds]
    omega
  | unbounded => simp [tickRounds, hq]

/-! ## exec and step -/

/-- The effect of an instruction on a live state. -/
def effect : Instr → State → State
  | .decodeMb d g b _ n, s => dispatchDecodeMb d g b n (beginDispatch s)
  | .setQuant _ c, s => dispatchSetQuant c (beginDispatch s)
  | .setIdct _, s => dispatchSetIdct (beginDispatch s)
  | .nopCmd0 _, s => dispatchNone (beginDispatch s)
  | .nopCmd4 _, s => dispatchNone (beginDispatch s)
  | .nopCmd5 _, s => dispatchNone (beginDispatch s)
  | .nopCmd6 _, s => dispatchNone (beginDispatch s)
  | .nopCmd7 _, s => dispatchNone (beginDispatch s)
  | .paramData w, s => acceptParameter (dataWord w) s
  | .paramQuant w, s => acceptParameter (quantWord w) s
  | .paramIdct w, s => acceptParameter (idctWord w) s
  | .paramNone _, s => acceptParameter id s
  | .wrData w, s => if commandBusy s then parameterWrite w s else commandDispatch w s
  | .rdData, s => readData s
  | .wrCtrl r i o _, s => writeControl r i o s
  | .rdStatus, s => returnRead (statusWord s) s
  | .tick k, s => decodeStep k s

/-- Every instruction applies its effect, or stops on a recorded model fault. -/
theorem exec_eq_perform (i : Instr) (s : State) : exec i s = perform s (effect i s) := by
  cases i <;> rfl

theorem exec_live {i : Instr} {s : State} (h : Live s) : exec i s = .next (effect i s) := by
  rw [exec_eq_perform, perform_live h]

theorem exec_eq_next {i : Instr} {s t : State} : exec i s = .next t ↔ Live s ∧ t = effect i s := by
  rw [exec_eq_perform, perform_eq_next]

theorem step_live {s : State} (h : Live s) : step s = applyPending s := by
  simp [step, h]

theorem step_faulted {s : State} {m : ModelFault} (h : s.fault = some m) :
    step s = .fault (.afterModelFault m) := by
  simp [step, h]

theorem step_nil {s : State} (h : Live s) (hp : s.pending = []) : step s = .next s := by
  rw [step_live h, applyPending, hp]
  exact perform_live h

/-- A pending operation that is an instruction runs as that instruction. -/
theorem step_cons {s : State} {op : HostOp} {rest : List HostOp} {i : Instr} (h : Live s)
    (hp : s.pending = op :: rest) (hd : decode (writeMode s) op = .ok i) :
    step s = exec i (withPending rest s) := by
  rw [step_live h, applyPending, hp]
  simp [applyOp, hd]

/-- Everything a step that answers a next state can be. -/
theorem step_cases {s t : State} (h : step s = .next t) :
    Live s ∧ ((s.pending = [] ∧ t = s) ∨
      ∃ op rest, s.pending = op :: rest ∧
        ((∃ i, decode (writeMode s) op = .ok i ∧ t = effect i (withPending rest s)) ∨
          (decode (writeMode s) op = .error .badAccess ∧ t = raise .badAccess (withPending rest s)))) := by
  cases hf : s.fault with
  | some m => rw [step_faulted hf] at h; cases h
  | none =>
    refine ⟨hf, ?_⟩
    cases hp : s.pending with
    | nil =>
      rw [step_nil hf hp] at h
      exact .inl ⟨rfl, by injection h with h; exact h.symm⟩
    | cons op rest =>
      refine .inr ⟨op, rest, rfl, ?_⟩
      cases hd : decode (writeMode s) op with
      | ok i =>
        rw [step_cons hf hp hd, exec_eq_next] at h
        exact .inl ⟨i, rfl, h.2⟩
      | error r =>
        rw [step_live hf, applyPending, hp] at h
        simp only [applyOp, writeMode_withPending, hd] at h
        cases r with
        | badAccess => exact .inr ⟨rfl, (perform_eq_next.1 h).2⟩
        | zeroTick => cases h

/-- Runs add up. -/
theorem runSteps_add {m : Nat} (n : Nat) {s t : State} (h : runSteps m s = .next t) :
    runSteps (m + n) s = runSteps n t := by
  induction m generalizing s with
  | zero =>
    simp only [runSteps, Host.Outcome.next.injEq] at h
    simp [h]
  | succ m ih =>
    rw [show m + 1 + n = (m + n) + 1 by omega]
    simp only [runSteps] at h ⊢
    cases hs : step s with
    | next u =>
      rw [hs] at h
      exact ih h
    | fault f =>
      rw [hs] at h
      cases h
    | refused r =>
      rw [hs] at h
      cases h

end Sys2Proof.Machine
end

