-- ==== Sys2Proof/Laws/Decode.lean ====
section
/-! SUPPORT. Bytes, codes and the decoder: the byte lanes of a word and the depth codes are inverse to each other,
a port write is read as its word, and the dispatch of each opcode. -/
namespace Sys2Proof

/-- A word is made of its bytes (R63). -/
@[simp] theorem wordOfBytes_byteOf (w : Word) :
    wordOfBytes (byteOf w 0) (byteOf w 1) (byteOf w 2) (byteOf w 3) = w := by
  refine BitVec.eq_of_getLsbD_eq fun i hi => ?_
  simp only [wordOfBytes, byteOf, BitVec.getLsbD_append, BitVec.getLsbD_extractLsb']
  interval_cases i <;> rfl

/-- The bytes of a word made of bytes are those bytes (R63). -/
@[simp] theorem bytesOfWord_wordOfBytes (b0 b1 b2 b3 : Byte) :
    bytesOfWord (wordOfBytes b0 b1 b2 b3) = [b0, b1, b2, b3] := by
  simp only [bytesOfWord, List.cons.injEq, and_true]
  refine ⟨?_, ?_, ?_, ?_⟩ <;>
  · refine BitVec.eq_of_getLsbD_eq fun i hi => ?_
    simp only [wordOfBytes, byteOf, BitVec.getLsbD_append, BitVec.getLsbD_extractLsb']
    interval_cases i <;> simp

@[simp] theorem Depth.ofCode_code (d : Depth) : Depth.ofCode d.code = d := by cases d <;> rfl

@[simp] theorem Depth.code_ofCode (c : BitVec 2) : (Depth.ofCode c).code = c := by revert c; decide

/-- A 32-bit write at the data port is read as its word (R86). -/
@[simp] theorem decode_portWrite_data (m : Mode) (w : Word) :
    decode m (portWrite 0 w) = .ok (decodeDataWrite m w) := by
  simp [portWrite, bytesOfWord, decode]

/-- A 32-bit write at the control port is read as its word (R38). -/
@[simp] theorem decode_portWrite_control (m : Mode) (w : Word) :
    decode m (portWrite 4 w) = .ok (decodeControl w) := by
  simp [portWrite, bytesOfWord, decode]

/-- An operation that is read as an instruction is admitted (R61) and takes at least one word (R154). -/
theorem decode_ok_cases {m : Mode} {op : HostOp} {i : Instr} (h : decode m op = .ok i) :
    (∃ w, op = portWrite 0 w ∧ i = decodeDataWrite m w) ∨ (∃ w, op = portWrite 4 w ∧ i = decodeControl w) ∨
    (op = .busRead 0 4 ∧ i = .rdData) ∨ (op = .busRead 4 4 ∧ i = .rdStatus) ∨
    (∃ k, op = .tick k ∧ k.wellFormed = true ∧ i = .tick k) := by
  cases op with
  | busWrite off bytes =>
    match bytes, h with
    | [b0, b1, b2, b3], h =>
      simp only [decode] at h
      split at h
      · exact .inl ⟨wordOfBytes b0 b1 b2 b3, by simp [portWrite, *], by injection h with h; exact h.symm⟩
      · split at h
        · exact .inr (.inl ⟨wordOfBytes b0 b1 b2 b3, by simp [portWrite, *], by injection h with h; exact h.symm⟩)
        · cases h
    | [], h => cases h
    | [_], h => cases h
    | [_, _], h => cases h
    | [_, _, _], h => cases h
    | _ :: _ :: _ :: _ :: _ :: _, h => cases h
  | busRead off n =>
    simp only [decode] at h
    split at h
    · split at h
      · exact .inr (.inr (.inl ⟨by simp [*], by injection h with h; exact h.symm⟩))
      · split at h
        · exact .inr (.inr (.inr (.inl ⟨by simp [*], by injection h with h; exact h.symm⟩)))
        · cases h
    · cases h
  | tick k =>
    simp only [decode] at h
    split at h
    · exact .inr (.inr (.inr (.inr ⟨k, rfl, ‹_›, by injection h with h; exact h.symm⟩)))
    · cases h

namespace Machine

/-- The dispatch by opcode (R120, R132). -/
theorem commandDispatch_cases (w : Word) (s : State) :
    (opcode w = 1 ∧ commandDispatch w s =
      dispatchDecodeMb (depthField w) (bitOf w 26) (bitOf w 25) (countField w) (beginDispatch s)) ∨
    (opcode w = 2 ∧ commandDispatch w s = dispatchSetQuant (bitOf w 0) (beginDispatch s)) ∨
    (opcode w = 3 ∧ commandDispatch w s = dispatchSetIdct (beginDispatch s)) ∨
    (opcode w ≠ 1 ∧ opcode w ≠ 2 ∧ opcode w ≠ 3 ∧ commandDispatch w s = dispatchNone (beginDispatch s)) := by
  by_cases h1 : opcode w = 1
  · exact .inl ⟨h1, if_pos h1⟩
  by_cases h2 : opcode w = 2
  · exact .inr (.inl ⟨h2, by simp [commandDispatch, h2]⟩)
  by_cases h3 : opcode w = 3
  · exact .inr (.inr (.inl ⟨h3, by simp [commandDispatch, h3]⟩))
  · exact .inr (.inr (.inr ⟨h1, h2, h3, by rw [commandDispatch, if_neg h1, if_neg h2, if_neg h3]⟩))

/-- A command word's instruction has the dispatch's effect (R94, R120). -/
theorem effect_decodeCommand (w : Word) (s : State) : effect (decodeCommand w) s = commandDispatch w s := by
  by_cases h1 : opcode w = 1
  · simp [decodeCommand, commandDispatch, h1, effect]
  by_cases h2 : opcode w = 2
  · simp [decodeCommand, commandDispatch, h2, effect]
  by_cases h3 : opcode w = 3
  · simp [decodeCommand, commandDispatch, h3, effect]
  · simp only [decodeCommand, commandDispatch, if_neg h1, if_neg h2, if_neg h3]
    split
    · rfl
    · split
      · rfl
      · split
        · rfl
        · split <;> rfl

/-- A parameter word's instruction has the routing's effect (R88, R125). -/
theorem effect_decodeParam (w : Word) (s : State) : effect (decodeParam s.command w) s = parameterWrite w s := by
  unfold parameterWrite decodeParam
  cases s.command <;> rfl

end Machine
end Sys2Proof
end

