-- ==== Sys2Proof/Laws/Parameters.lean ====
section
/-! SUPPORT. Each parameter word said once (41_commands.md R125 to R128): the count going down, what a queued word
does, and where the bytes of a quantisation word and the halves of a coefficient word land. -/
namespace Sys2Proof.Machine

/-! ## The count -/

theorem count_sub_one_eq_zero {c : BitVec 16} : c - 1 = 0 ↔ c = 1 := by
  constructor
  · intro h
    have := congrArg (· + 1) h
    simpa using this
  · rintro rfl
    rfl

theorem count_sub_one_toNat {c : BitVec 16} (h : c ≠ 0) : (c - 1).toNat = c.toNat - 1 := by
  have hp : 0 < c.toNat := by
    rw [Nat.pos_iff_ne_zero, Ne, ← BitVec.toNat_inj] at *
    simpa using h
  rw [BitVec.toNat_sub]
  have := c.isLt
  simp
  omega

/-! ## A queued word -/

/-- A data word writes the queue and the active flag only. -/
theorem dataWord_frame (w : Word) (s : State) :
    dataWord w s =
      { s with inQueue := s.inQueue ++ [w], decodingActive := (dataWord w s).decodingActive } := by
  unfold dataWord
  simp only []
  split <;> rfl

theorem dataWord_active {w : Word} {s : State} :
    (dataWord w s).decodingActive = true ↔
      s.decodingActive = true ∨ s.inQueue.length + 1 = s.params.inFifoDepth ∨ s.parameterCount = 0 := by
  unfold dataWord
  simp only [queueFull_iff]
  split <;> rename_i h <;> simp at h <;> simp [h]

/-! ## Table words -/

/-- The bits of a table byte (R127). -/
theorem quantByte_eq {o : ByteOrder} {w : Word} {j : Nat} (hj : j < 4) :
    quantByte o w j =
      match o with
      | .msbFirst => w.extractLsb' (24 - 8 * j) 8
      | .lsbFirst => w.extractLsb' (8 * j) 8 := by
  cases o with
  | msbFirst =>
    simp only [quantByte, byteOf]
    congr 1
    omega
  | lsbFirst => rfl

/-- Word `i` of a quantisation table holds entries `4*i` to `4*i+3`. -/
theorem putQuantWord_getElem (o : ByteOrder) (w : Word) (i : Nat) (t : Vector Byte 64) (k : Nat) (hk : k < 64) :
    (putQuantWord o w i t)[k] = if k / 4 = i then quantByte o w (k % 4) else t[k] := by
  unfold putQuantWord
  simp only [Vector.getElem_setIfInBounds]
  by_cases h : k / 4 = i
  · rw [if_pos h]
    have hm : k % 4 = 0 ∨ k % 4 = 1 ∨ k % 4 = 2 ∨ k % 4 = 3 := by omega
    rcases hm with hm | hm | hm | hm <;> rw [hm]
    · simp [show 4 * i = k by omega]
    · simp [show 4 * i + 1 = k by omega, show ¬4 * i + 3 = k by omega, show ¬4 * i + 2 = k by omega]
    · simp [show 4 * i + 2 = k by omega, show ¬4 * i + 3 = k by omega]
    · simp [show 4 * i + 3 = k by omega]
  · rw [if_neg h, if_neg (by omega), if_neg (by omega), if_neg (by omega), if_neg (by omega)]

end Sys2Proof.Machine
end

