-- ==== Sys2Proof/Laws/PerInstr.lean ====
section
/-! SUPPORT. The families of statements about every instruction as syntax, one lemma per constructor. -/
namespace Sys2Proof.Laws.Admitted

/-- The operation that carries a well-formed instruction is admitted (20_memory.md R61: 32 bits wide, at offset 0
or 4) or a decode step of at least one word (42_decode_step.md R154). -/
def Statement (i : Instr) : Prop :=
  i.wellFormed = true →
    (∃ w, encode i = portWrite 0 w) ∨ (∃ w, encode i = portWrite 4 w) ∨
    encode i = .busRead 0 4 ∨ encode i = .busRead 4 4 ∨ ∃ k, encode i = .tick k ∧ k.wellFormed = true

theorem decodeMb (depth : Depth) (sgn b15 : Bool) (ignored : BitVec 9) (count : BitVec 16) :
    Statement (.decodeMb depth sgn b15 ignored count) := fun _ => .inl ⟨_, rfl⟩

theorem setQuant (ignored : BitVec 28) (color : Bool) : Statement (.setQuant ignored color) :=
  fun _ => .inl ⟨_, rfl⟩

theorem setIdct (ignored : BitVec 29) : Statement (.setIdct ignored) := fun _ => .inl ⟨_, rfl⟩

theorem nopCmd0 (ignored : BitVec 29) : Statement (.nopCmd0 ignored) := fun _ => .inl ⟨_, rfl⟩

theorem nopCmd4 (ignored : BitVec 29) : Statement (.nopCmd4 ignored) := fun _ => .inl ⟨_, rfl⟩

theorem nopCmd5 (ignored : BitVec 29) : Statement (.nopCmd5 ignored) := fun _ => .inl ⟨_, rfl⟩

theorem nopCmd6 (ignored : BitVec 29) : Statement (.nopCmd6 ignored) := fun _ => .inl ⟨_, rfl⟩

theorem nopCmd7 (ignored : BitVec 29) : Statement (.nopCmd7 ignored) := fun _ => .inl ⟨_, rfl⟩

theorem paramData (w : Word) : Statement (.paramData w) := fun _ => .inl ⟨_, rfl⟩

theorem paramQuant (w : Word) : Statement (.paramQuant w) := fun _ => .inl ⟨_, rfl⟩

theorem paramIdct (w : Word) : Statement (.paramIdct w) := fun _ => .inl ⟨_, rfl⟩

theorem paramNone (w : Word) : Statement (.paramNone w) := fun _ => .inl ⟨_, rfl⟩

theorem wrData (w : Word) : Statement (.wrData w) := fun _ => .inl ⟨_, rfl⟩

theorem rdData : Statement .rdData := fun _ => .inr (.inr (.inl rfl))

theorem wrCtrl (reset enIn enOut : Bool) (ignored : BitVec 29) : Statement (.wrCtrl reset enIn enOut ignored) :=
  fun _ => .inr (.inl ⟨_, rfl⟩)

theorem rdStatus : Statement .rdStatus := fun _ => .inr (.inr (.inr (.inl rfl)))

theorem tick (k : TickBudget) : Statement (.tick k) := fun h => .inr (.inr (.inr (.inr ⟨k, rfl, h⟩)))

end Sys2Proof.Laws.Admitted
end

