-- ==== Sys2Proof/Tests/Slice0.lean ====
section
/-! SUPPORT. Tests of one step each, with expected values from the spec (95_test_vectors.md, cited by section, and the
examples of the rules), and witnesses: a state and operands that meet the hypotheses of each statement. -/
namespace Sys2Proof.Tests
open Sys2Proof.Machine

/-! ## Helpers -/

/-- Does `i` answer a next state with the property `p`? -/
def after (i : Instr) (s : State) (p : State → Bool) : Bool :=
  match exec i s with
  | .next t => p t
  | .fault _ => false
  | .refused _ => false

/-- Does a step answer a next state with the property `p`? -/
def stepped (s : State) (p : State → Bool) : Bool :=
  match step s with
  | .next t => p t
  | .fault _ => false
  | .refused _ => false

/-- The power-on state with a small monochrome macroblock and the test engine `T_n`. -/
def small (n : Nat) : State :=
  State.powerOn { Params.default with engine := .test n, mbPixelsMono := 8, mbPixelsColor := 8 }

/-- A command with `count` parameter words to come. -/
def receiving (c : Command) (count : BitVec 16) (cnt : Nat) : State :=
  { small 2 with command := c, parameterCount := count, cnt := cnt }

/-- Queued words being decoded, with no words to come. -/
def decodingOf (n : Nat) (q : List Word) : State :=
  { small n with command := .decodeMacroblock, inQueue := q, decodingActive := true, currentBlock := .y1 }

/-- A synthetic Output Buffer (95_test_vectors.md S5). -/
def buffered (d : Depth) (b15 : Bool) (pixels : List Pixel) : State :=
  { small 1 with command := .decodeMacroblock, colorDepth := d, outputSetBit15 := b15, outBuf := pixels }

/-- Eight pixels for the 24-bit vectors, the first four of S5. -/
def eight : List Pixel :=
  [0x030201, 0x060504, 0x090807, 0x0C0B0A, 0x0F0E0D, 0x121110, 0x151413, 0x181716]

/-- The eight intensities of S5. -/
def ramp : List Pixel := [0x10, 0x21, 0x32, 0x43, 0x54, 0x65, 0x76, 0x87]

/-! ## Well-formedness (R154) -/

theorem test_wellformed_refuses_zero_tick : (Instr.tick (.atMost 0)).wellFormed = false := by decide

theorem test_wellformed_takes_one_tick : (Instr.tick (.atMost 1)).wellFormed = true := by decide

/-! ## Decoding: words written out from the encodings of R82 to R85, R38 and V2 -/

theorem test_decode_decodeMb :
    decodeTableWord 32 0x3E000060 = some (.decodeMb .bits15 true true 0 96) := by decide

theorem test_decode_decodeMb_ignored :
    decodeTableWord 32 0x20FF0003 = some (.decodeMb .bits4 false false 0xFF 3) := by decide

theorem test_decode_setQuant : decodeTableWord 32 0x5FFFFFFE = some (.setQuant 0xFFFFFFF false) := by decide

theorem test_decode_setQuant_color : decodeTableWord 32 0x40000001 = some (.setQuant 0 true) := by decide

theorem test_decode_setIdct : decodeTableWord 32 0x7FFFFFFF = some (.setIdct 0x1FFFFFFF) := by decide

theorem test_decode_nopCmd0 : decodeTableWord 32 0x00000001 = some (.nopCmd0 1) := by decide

theorem test_decode_nopCmd4 : decodeTableWord 32 0x80000002 = some (.nopCmd4 2) := by decide

theorem test_decode_nopCmd5 : decodeTableWord 32 0xA0000003 = some (.nopCmd5 3) := by decide

theorem test_decode_nopCmd6 : decodeTableWord 32 0xC0000004 = some (.nopCmd6 4) := by decide

theorem test_decode_nopCmd7 : decodeTableWord 32 0xFFFFFFFF = some (.nopCmd7 0x1FFFFFFF) := by decide

/-- The parameter formats (R88): one word, four commands. -/
theorem test_decode_params :
    decode (.param .decodeMacroblock) (.busWrite 0 [0x78, 0x56, 0x34, 0x12]) = .ok (.paramData 0x12345678) ∧
    decode (.param .setQuantTable) (.busWrite 0 [0x04, 0x03, 0x02, 0x01]) = .ok (.paramQuant 0x01020304) ∧
    decode (.param .setIdct) (.busWrite 0 [0xAA, 0xAA, 0xBB, 0xBB]) = .ok (.paramIdct 0xBBBBAAAA) ∧
    decode (.param .none) (.busWrite 0 [0, 0, 0, 0]) = .ok (.paramNone 0) := ⟨rfl, rfl, rfl, rfl⟩

/-- The bus operations (R92, R93) and the decode step. -/
theorem test_decode_ports :
    decode .port (.busWrite 0 [0x60, 0x00, 0x00, 0x3A]) = .ok (.wrData 0x3A000060) ∧
    decode .port (.busRead 0 4) = .ok .rdData ∧
    decode .port (.busWrite 4 [0x01, 0x00, 0x00, 0xC0]) = .ok (.wrCtrl true true false 1) ∧
    decode .port (.busRead 4 4) = .ok .rdStatus ∧
    decode .port (.tick (.atMost 1)) = .ok (.tick (.atMost 1)) := ⟨rfl, rfl, rfl, rfl, rfl⟩

/-- V4: what is not admitted. -/
theorem test_decode_bad_access :
    decode .command (.busWrite 0 [0, 0]) = .error .badAccess ∧
    decode .command (.busRead 4 1) = .error .badAccess ∧
    decode .command (.busRead 2 4) = .error .badAccess ∧
    decode .command (.busWrite 6 [0, 0, 0, 0]) = .error .badAccess := ⟨rfl, rfl, rfl, rfl⟩

/-! ## Commands (S1, V2): the Status word after each -/

theorem test_decodeMb_status :
    after (.decodeMb .bits15 true true 0 96) State.reset (fun t => statusWord t == 0xA7840060) = true := by decide

theorem test_decodeMb_empty :
    after (.decodeMb .bits4 false false 0 0) State.reset
      (fun t => statusWord t == 0xC0000000 && !commandBusy t) = true := by decide

theorem test_setQuant_status :
    after (.setQuant 0 true) State.reset (fun t => statusWord t == 0xA0040020) = true := by decide

theorem test_setQuant_luma_request :
    after (.setQuant 0xFFFFFFF false) { State.reset with enableDataIn := true }
      (fun t => statusWord t == 0xB0040010) = true := by decide

theorem test_setIdct_status :
    after (.setIdct 0x1FFFFFFF) State.reset (fun t => statusWord t == 0xA0040020) = true := by decide

/-- V2: after a DecodeMacroblock of no words (`R4 -> 0xC0000000`), a None word leaves `0x80000000`. -/
theorem test_nopCmds_after_decode :
    [Instr.nopCmd0 0, .nopCmd4 0, .nopCmd5 0, .nopCmd6 0, .nopCmd7 0x1FFFFFFF].all
      (fun i => after i { State.reset with command := .decodeMacroblock, currentBlock := .y1 }
        (fun t => statusWord t == 0x80000000 && t.command == .none)) = true := by decide

/-! ## Parameter words (V3) -/

theorem test_paramData_last :
    after (.paramData 0x12345678) { receiving .decodeMacroblock 1 0 with currentBlock := .y1 }
      (fun t => statusWord t == 0xE0000000 && t.inQueue == [0x12345678] && t.decodingActive) = true := by decide

theorem test_paramData_overflow :
    after (.paramData 1)
      { receiving .decodeMacroblock 8 0 with
        params := { Params.default with inFifoDepth := 2 }, inQueue := [0, 0], decodingActive := true }
      (fun t => t.fault == some .inFifoOverflow && t.inQueue == [0, 0] && t.parameterCount == 8) = true := by decide

theorem test_paramQuant_luma :
    after (.paramQuant 0x01020304) (receiving .setQuantTable 16 0)
      (fun t => t.tables.lumaQ[0] == 1 && t.tables.lumaQ[1] == 2 && t.tables.lumaQ[3] == 4 && t.cnt == 1 &&
        t.parameterCount == 15) = true := by decide

theorem test_paramQuant_chroma :
    after (.paramQuant 0xAABBCCDD) (receiving .setQuantTable 16 16)
      (fun t => t.tables.chromaQ[0] == 0xAA && t.tables.chromaQ[3] == 0xDD && t.tables.lumaQ[0] == 0 &&
        t.parameterCount == 15) = true := by decide

theorem test_paramIdct_first :
    after (.paramIdct 0xBBBBAAAA) (receiving .setIdct 32 0)
      (fun t => t.tables.idct[0] == 0xAAAA && t.tables.idct[1] == 0xBBBB) = true := by decide

theorem test_paramIdct_last :
    after (.paramIdct 0x0002FFFF) (receiving .setIdct 1 31)
      (fun t => t.tables.idct[62] == 0xFFFF && t.tables.idct[63] == 2 && !commandBusy t) = true := by decide

theorem test_paramNone_counts_down :
    after (.paramNone 7) (receiving .none 1 0) (fun t => t.parameterCount == 0 && t.inQueue == []) = true := by
  decide

/-! ## Ports (V1, V3, V6, S5, S7) -/

/-- V3: a busy block with a count of 0 takes no word. -/
theorem test_wrData_excess :
    after (.wrData 0) (decodingOf 1 [0x12345678])
      (fun t => t.fault == some .excessParameter && t.inQueue == [0x12345678]) = true := by decide

/-- V3: idle after a table load, the next word is a command; the counter restarts. -/
theorem test_wrData_command :
    after (.wrData 0x40000000) (receiving .setQuantTable 0 16)
      (fun t => t.cnt == 0 && t.parameterCount == 16) = true := by decide

theorem test_rdData_underrun :
    after .rdData State.reset (fun t => t.lastRead == some 0 && statusWord t == 0x80040000) = true := by decide

/-- S5 and V6: the four packings, the 4-bit one with the end of the buffer. -/
theorem test_rdData_packings :
    after .rdData (buffered .bits4 false ramp)
      (fun t => t.lastRead == some 0x87654321 && t.outBuf == []) = true ∧
    (packWord (buffered .bits8 false [0x11, 0x22, 0x33, 0x44])).1 = 0x44332211 ∧
    (packWord (buffered .bits15 true [0x0000FF, 0x00FF00])).1 = 0x83E0801F ∧
    (packWord (buffered .bits15 false [0xFF0000, 0xFFFFFF])).1 = 0x7FFF7C00 ∧
    (packWord (buffered .bits24 false eight)).1 = 0x04030201 ∧
    (packWord { buffered .bits24 false eight with phase := 1 }).1 = 0x08070605 ∧
    (packWord { buffered .bits24 false eight with phase := 2 }).1 = 0x0C0B0A09 := by decide

theorem test_wrCtrl_enables :
    after (.wrCtrl false true true 0) State.reset (fun t => statusWord t == 0x90040000) = true := by decide

theorem test_wrCtrl_reset :
    after (.wrCtrl true true false 0) (decodingOf 1 [1, 2])
      (fun t => statusWord t == 0x90040000 && t.enableDataIn && !t.enableDataOut) = true := by decide

theorem test_rdStatus_power_on :
    after .rdStatus State.reset (fun t => t.lastRead == some 0x80040000) = true := by decide

/-- V4: admission comes first. -/
theorem test_step_bad_access_first :
    stepped (withPending [.busWrite 0 [0, 0]] (decodingOf 1 [1])) (fun t => t.fault == some .badAccess) = true := by
  decide

/-! ## The decode step (V5) -/

theorem test_tick_stops_at_macroblock :
    after (.tick .unbounded) (decodingOf 1 [0x0A, 0x0B, 0x0C])
      (fun t => t.inQueue == [0x0B, 0x0C] && t.outBuf == List.replicate 8 0x0A && t.decodingActive) = true := by
  decide

theorem test_tick_partial_macroblock :
    after (.tick .unbounded) (decodingOf 3 [1, 2])
      (fun t => t.engine == 2 && statusWord t == 0xC0000000) = true := by decide

/-! ## The host's two functions -/

theorem test_withFetchWord_runs :
    stepped (State.reset.withFetchWord 32 0x60000000) (fun t => statusWord t == 0xA0040020) = true := by decide

theorem test_withFetchWord_tick :
    stepped (State.reset.withFetchWord 0 0) (fun t => t.pending == [] && t.fault == none) = true := by decide

/-! ## Witnesses: states and operands that meet the hypotheses of each statement -/

theorem witness_valid_params : Params.default.Valid := by decide

theorem witness_inv_reset : BlockInv State.reset := by constructor <;> decide

theorem witness_inv_receiving : BlockInv (receiving .decodeMacroblock 1 0) := by constructor <;> decide

theorem witness_inv_decoding : BlockInv (decodingOf 1 [1]) := by constructor <;> decide

theorem witness_inv_buffered : BlockInv (buffered .bits4 false ramp) := by constructor <;> decide

theorem witness_inv_table_load : BlockInv (receiving .setQuantTable 1 31) := by constructor <;> decide

/-- The hypotheses of a command: live, idle, with valid parameters. -/
theorem witness_live_idle :
    Live State.reset ∧ Idle State.reset ∧ State.reset.params.Valid ∧ State.reset.pending = [] := by decide

theorem witness_StepKeepsInvariants :
    BlockInv (withPending [portWrite 0 0x20000001] (small 1)) ∧
      stepped (withPending [portWrite 0 0x20000001] (small 1)) (fun _ => true) = true := by
  refine ⟨?_, by decide⟩
  constructor <;> decide

theorem witness_StepRunsDecodedOperation :
    Live (withPending [portWrite 0 5] (receiving .setIdct 1 31)) ∧
    (withPending [portWrite 0 5] (receiving .setIdct 1 31)).pending = portWrite 0 5 :: [] ∧
    decode (if commandBusy (receiving .setIdct 1 31) then .param (receiving .setIdct 1 31).command else .command)
      (portWrite 0 5) = .ok (.paramIdct 5) := ⟨rfl, rfl, rfl⟩

theorem witness_WriteClassifiedByState :
    [small 1, receiving .none 1 0].all (fun s =>
      decide (Live (withPending [portWrite 0 5] s) ∧
        (withPending [portWrite 0 5] s).pending = portWrite 0 5 :: [])) = true ∧
    commandBusy (withPending [portWrite 0 5] (small 1)) = false ∧
    commandBusy (withPending [portWrite 0 5] (receiving .none 1 0)) = true := by decide

theorem witness_FaultedBlockHasNoStep :
    ({ small 1 with fault := some .badAccess } : State).fault = some .badAccess ∧ Live (small 1) := by decide

theorem witness_UnadmittedAccessIsBadAccess :
    (Live (withPending [.busWrite 0 [0, 0, 0]] (small 1)) ∧
      ¬(([0, 0, 0] : List Byte).length = 4 ∧ ((0 : Nat) = 0 ∨ (0 : Nat) = 4)) ∧
      (withPending [.busWrite 0 [0, 0, 0]] (small 1)).pending = .busWrite 0 [0, 0, 0] :: []) ∧
    (¬((4 : Nat) = 4 ∧ ((5 : Nat) = 0 ∨ (5 : Nat) = 4)) ∧
      (withPending [.busRead 5 4] (small 1)).pending = .busRead 5 4 :: []) := by
  decide

theorem witness_TickOfNoWordsRefused :
    Live (withPending [.tick (.atMost 0)] (small 1)) ∧
    (withPending [.tick (.atMost 0)] (small 1)).pending = .tick (.atMost 0) :: [] := by decide

/-- The four command clauses, each with a word of the spec. -/
theorem witness_DispatchTotalAndExclusive :
    (0x20000005#32).extractLsb' 29 3 = 1 ∧ (0x40000001#32).extractLsb' 29 3 = 2 ∧
    (0x60000000#32).extractLsb' 29 3 = 3 ∧
    ((0x80000000#32).extractLsb' 29 3 ≠ 1 ∧ (0x80000000#32).extractLsb' 29 3 ≠ 2 ∧
      (0x80000000#32).extractLsb' 29 3 ≠ 3) := by decide

/-- An accepted parameter word under each command, the last one of its stream. -/
theorem witness_accepted_parameters :
    [Command.decodeMacroblock, .setQuantTable, .setIdct, .none].all (fun c =>
      decide (Live (receiving c 1 31) ∧ (receiving c 1 31).parameterCount ≠ 0 ∧
        ¬((receiving c 1 31).command = .decodeMacroblock ∧
          (receiving c 1 31).inQueue.length = (receiving c 1 31).params.inFifoDepth) ∧
        commandBusy (receiving c 1 31) = true)) = true := by decide

theorem witness_ParameterWordFaults :
    (Live (decodingOf 1 [1]) ∧ commandBusy (decodingOf 1 [1]) = true ∧ (decodingOf 1 [1]).parameterCount = 0) ∧
    (∃ s : State, Live s ∧ s.parameterCount ≠ 0 ∧ s.command = .decodeMacroblock ∧
      s.inQueue.length = s.params.inFifoDepth) :=
  ⟨by decide, { receiving .decodeMacroblock 1 0 with inQueue := List.replicate 32 0 }, by decide⟩

theorem witness_BusyWriteAccepted :
    TableLoad (receiving .setQuantTable 1 31) ∧ TableLoad (receiving .setIdct 1 31) := by decide

theorem witness_UnderrunReturnsZero : Live (small 1) ∧ (small 1).outBuf = [] := by decide

/-- The packings: a buffer at each depth, at its end and before it. -/
theorem witness_packed_reads :
    (buffered .bits4 false ramp).outBuf.length ≤ (buffered .bits4 false ramp).ptr + 8 ∧
    ¬(buffered .bits8 false ramp).outBuf.length ≤ (buffered .bits8 false ramp).ptr + 4 ∧
    ¬(buffered .bits15 false ramp).outBuf.length ≤ (buffered .bits15 false ramp).ptr + 2 ∧
    (buffered .bits4 false ramp).outBuf[(buffered .bits4 false ramp).ptr + 7]? = some 0x87 ∧
    (buffered .bits8 false ramp).outBuf[(buffered .bits8 false ramp).ptr + 3]? = some 0x43 ∧
    (buffered .bits15 false ramp).outBuf[(buffered .bits15 false ramp).ptr + 1]? = some 0x21 ∧
    Live (buffered .bits4 false ramp) ∧ (buffered .bits15 false ramp).params.pack15 = .rgb555 := by decide

/-- Each depth at the end of the buffer too: the advanced cursor equals the length (R177). -/
theorem witness_packed_reads_at_end :
    [(Depth.bits4, 0), (.bits8, 4), (.bits15, 6)].all (fun (d, c) =>
      decide (Live { buffered d false ramp with ptr := c } ∧
        (buffered d false ramp).outBuf ≠ [] ∧ (buffered d false ramp).colorDepth = d ∧
        (buffered d false ramp).outBuf.length = c + advance d 0 ∧
        (buffered d false ramp).outBuf[c]? ≠ none)) = true := by decide

theorem witness_TwentyFourBitReads :
    [(0 : Fin 3), 1, 2].all (fun ph =>
      decide (Live { buffered .bits24 false eight with ptr := 4, phase := ph } ∧
        (buffered .bits24 false eight).outBuf[4]? = some 0x0F0E0D ∧
        (buffered .bits24 false eight).outBuf[4 + 1]? = some 0x121110 ∧
        (buffered .bits24 false eight).outBuf[4 + 2]? = some 0x151413 ∧
        (buffered .bits24 false eight).outBuf[4 + 3]? = some 0x181716)) = true := by decide

theorem witness_TwentyFourBitRoundTrip :
    (buffered .bits24 false eight).outBuf =
      [] ++ [0x030201, 0x060504, 0x090807, 0x0C0B0A] ++ [0x0F0E0D, 0x121110, 0x151413, 0x181716] ∧
    (buffered .bits24 false eight).outBuf =
      [0x030201, 0x060504, 0x090807, 0x0C0B0A] ++ [0x0F0E0D, 0x121110, 0x151413, 0x181716] ++ [] ∧
    (buffered .bits24 false eight).phase = 0 := by decide

theorem witness_ReadsDrainBuffer :
    Live (buffered .bits24 false eight) ∧ (buffered .bits24 false eight).outBuf ≠ [] ∧
    (buffered .bits24 false eight).phase = 0 ∧ (buffered .bits24 false eight).outBuf.length % 8 = 0 ∧ (buffered .bits24 false eight).ptr = 0 ∧
    drainReads .bits24 8 = 6 ∧ drainReads .bits4 8 = 1 := by decide

theorem witness_TickWithoutWork :
    (small 1).decodingActive = false ∧ (buffered .bits4 false ramp).outBuf ≠ [] := by decide

/-- A working decode step: `T_1` completes a macroblock, `T_3` does not. -/
theorem witness_TickFeedsHeadWord :
    Live (decodingOf 1 [1, 2]) ∧ (decodingOf 1 [1, 2]).decodingActive = true ∧
    (decodingOf 1 [1, 2]).outBuf = [] ∧ (decodingOf 1 [1, 2]).inQueue = [1, 2] ∧
    TickBudget.unbounded.wellFormed = true ∧ (TickBudget.atMost 1).wellFormed = true := by decide

theorem witness_UnboundedTick : (decodingOf 1 [1, 2]).inQueue.length ≤ 2 := by decide

/-- An instruction that answers a next state (the last clause of EngineRestarts, ParametersNeverWritten). -/
theorem witness_EngineRestarts : after .rdStatus (small 1) (fun _ => true) = true := by decide

theorem witness_TableStoreWriters :
    stepped (withPending [portWrite 0 0x01020304] (receiving .setQuantTable 1 31))
      (fun t => t.tables != (receiving .setQuantTable 1 31).tables) = true := by decide

theorem witness_DepthFixedWhilePixelsRemain :
    (buffered .bits8 false ramp).outBuf ≠ [] ∧
    stepped (withPending [.busRead 0 4] (buffered .bits8 false ramp)) (fun t => t.outBuf != []) = true := by decide

/-- The three sequencing states (R131). -/
theorem witness_SequencingStates :
    [small 1, receiving .setIdct 1 31, decodingOf 1 [1], buffered .bits4 false ramp].all (fun s =>
      decide (Live (withPending [portWrite 0 5] s) ∧
        (withPending [portWrite 0 5] s).pending = portWrite 0 5 :: [])) = true ∧
    stage (small 1) = .idle ∧ stage (receiving .setIdct 1 31) = .receiving .setIdct ∧
    stage (decodingOf 1 [1]) = .draining ∧ stage (buffered .bits4 false ramp) = .draining := by decide

theorem witness_TableLoadNeverFaults :
    BlockInv (withPending [portWrite 0 5] (receiving .setIdct 32 0)) ∧
      Live (receiving .setIdct 32 0) ∧ TableLoad (receiving .setIdct 32 0) ∧
      (withPending [portWrite 0 5] (receiving .setIdct 32 0)).pending = portWrite 0 5 :: [] ∧
      commandBusy (receiving .setIdct 32 0) = true := by
  refine ⟨?_, by decide⟩
  constructor <;> decide

theorem witness_DmaContract_feed :
    ∃ s : State, BlockInv s ∧ Live s ∧ s.pending = portWrite 0 5 :: [] ∧ DmaOp s (portWrite 0 5) := by
  refine ⟨withPending [portWrite 0 5] { receiving .decodeMacroblock 1 0 with enableDataIn := true }, ?_, by decide,
    by decide, .feed 5 (by decide)⟩
  constructor <;> decide

theorem witness_DmaContract_drain :
    ∃ s : State, BlockInv s ∧ Live s ∧ s.pending = .busRead 0 4 :: [] ∧ DmaOp s (.busRead 0 4) := by
  refine ⟨withPending [.busRead 0 4] { buffered .bits4 false ramp with enableDataOut := true }, ?_, by decide,
    by decide, .drain (by decide)⟩
  constructor <;> decide

theorem witness_DrainingReachesIdle :
    BlockInv (decodingOf 1 [1]) ∧ Live (decodingOf 1 [1]) ∧ stage (decodingOf 1 [1]) = .draining :=
  ⟨witness_inv_decoding, by decide⟩

theorem witness_QuantLoadFillsTables :
    ((0x40000000#32).extractLsb' 29 3 = 2 ∧
      (List.replicate 16 (0 : Word)).length = if (0x40000000#32).getLsbD 0 then 32 else 16) ∧
    ((0x40000001#32).extractLsb' 29 3 = 2 ∧
      (List.replicate 32 (0 : Word)).length = if (0x40000001#32).getLsbD 0 then 32 else 16) ∧
    Live (small 1) ∧ Idle (small 1) := by decide

theorem witness_IdctLoadFillsTable :
    (0x60000000#32).extractLsb' 29 3 = 3 ∧ (List.replicate 32 (0 : Word)).length = 32 := by decide

theorem witness_EncodeOfDecode : decode .port (.tick .unbounded) = .ok (.tick .unbounded) := rfl

end Sys2Proof.Tests
end

/-! SUPPORT. The scope of the block (00_scope.md): a step is the meaning of one decoded operation (R4), and nothing the
block does writes its parameters or the operations still pending (R4, R5). -/
namespace Sys2Proof.Machine

/-! ## A step is one decoded operation -/

/-- Settles O4: the mode of the statement is `writeMode`, and the state with the operation taken is `withPending`. -/
theorem stepRunsDecodedOperation : Obligations.StepRunsDecodedOperation :=
  fun _ _ _ _ hlive hpending hdecode => step_cons hlive hpending hdecode

/-! ## The parameters and the pending operations are kept -/

/-- A parameter word, accepted or faulting, under any command. -/
theorem acceptParameter_routeWord_keeps_host (c : Command) (w : Word) (s : State) :
    (acceptParameter (routeWord c w) s).params = s.params ∧
    (acceptParameter (routeWord c w) s).pending = s.pending := by
  rcases acceptParameter_cases (routeWord c w) s with ⟨_, h⟩ | ⟨_, _, _, h⟩ | ⟨_, _, h⟩
  · simp [h]
  · simp [h]
  · obtain ⟨-, -, -, hparams, hpending, -⟩ := routeWord_frame c w { s with parameterCount := s.parameterCount - 1 }
    rw [h]
    exact ⟨hparams, hpending⟩

theorem commandDispatch_keeps_host (w : Word) (s : State) :
    (commandDispatch w s).params = s.params ∧ (commandDispatch w s).pending = s.pending := by
  rcases commandDispatch_cases w s with ⟨_, h⟩ | ⟨_, h⟩ | ⟨_, h⟩ | ⟨_, _, _, h⟩ <;> simp [h]

theorem readData_keeps_host (s : State) :
    (readData s).params = s.params ∧ (readData s).pending = s.pending := by
  unfold readData
  split
  · simp
  · rcases packRead_cases s with ⟨_, h⟩ | ⟨_, h⟩ <;> simp [h]

theorem writeControl_keeps_host (reset enIn enOut : Bool) (s : State) :
    (writeControl reset enIn enOut s).params = s.params ∧ (writeControl reset enIn enOut s).pending = s.pending := by
  cases reset <;> simp [writeControl]

theorem decodeStep_keeps_host (k : TickBudget) (s : State) :
    (decodeStep k s).params = s.params ∧ (decodeStep k s).pending = s.pending := by
  unfold decodeStep
  split
  · simp
  · rw [settleActive_frame, decodeLoop_frame]
    simp

/-- No instruction's effect writes the parameters or the pending operations. -/
theorem effect_keeps_host (i : Instr) (s : State) :
    (effect i s).params = s.params ∧ (effect i s).pending = s.pending := by
  cases i with
  | decodeMb d sgn b15 ignored count => simp [effect]
  | setQuant ignored color => simp [effect]
  | setIdct ignored => simp [effect]
  | nopCmd0 ignored => simp [effect]
  | nopCmd4 ignored => simp [effect]
  | nopCmd5 ignored => simp [effect]
  | nopCmd6 ignored => simp [effect]
  | nopCmd7 ignored => simp [effect]
  | paramData w => exact acceptParameter_routeWord_keeps_host .decodeMacroblock w s
  | paramQuant w => exact acceptParameter_routeWord_keeps_host .setQuantTable w s
  | paramIdct w => exact acceptParameter_routeWord_keeps_host .setIdct w s
  | paramNone w => exact acceptParameter_routeWord_keeps_host .none w s
  | wrData w =>
    simp only [effect]
    split
    · exact acceptParameter_routeWord_keeps_host s.command w s
    · exact commandDispatch_keeps_host w s
  | rdData => exact readData_keeps_host s
  | wrCtrl reset enIn enOut ignored => exact writeControl_keeps_host reset enIn enOut s
  | rdStatus => simp [effect]
  | tick k => exact decodeStep_keeps_host k s

/-- A step keeps the parameters and takes exactly the first pending operation, an unadmitted one too. -/
theorem step_keeps_params_pops_pending {s t : State} (h : step s = .next t) :
    t.params = s.params ∧ t.pending = s.pending.tail := by
  obtain ⟨_, ⟨hnil, rfl⟩ | ⟨op, rest, hcons, ⟨i, _, rfl⟩ | ⟨_, rfl⟩⟩⟩ := step_cases h
  · simp [hnil]
  · simpa [hcons] using effect_keeps_host i (withPending rest s)
  · simp [hcons]

/-- Settles O43, from the frame of every instruction's effect and the inversion of a step. -/
theorem parametersNeverWritten : Obligations.ParametersNeverWritten := by
  refine ⟨fun i s t h => ?_, fun s t h => step_keeps_params_pops_pending h⟩
  obtain ⟨_, rfl⟩ := exec_eq_next.1 h
  exact effect_keeps_host i s

end Sys2Proof.Machine

/-! SUPPORT. Encodings (30_encoding.md): the fields of each encoded word are its operands, and a word is the
concatenation of its fields, so decoder and encoder are inverse to each other. -/
namespace Sys2Proof

/-! ## Bits and fields of a word -/

/-- A bit of a word is its field of width one. -/
theorem ofBool_bitOf (w : Word) (k : Nat) : BitVec.ofBool (bitOf w k) = w.extractLsb' k 1 := by
  refine BitVec.eq_of_getLsbD_eq fun i hi => ?_
  obtain rfl : i = 0 := by omega
  simp [bitOf]

theorem bitOf_eq_of_field {w : Word} {k : Nat} {b : Bool} (h : w.extractLsb' k 1 = BitVec.ofBool b) :
    bitOf w k = b := by
  rwa [← ofBool_bitOf, BitVec.ofBool_eq_iff_eq] at h

/-! ## The fields of an encoded word are its operands -/

/-- The layout of R82. -/
@[simp] theorem decodeMbWord_fields (d : Depth) (sgn b15 : Bool) (ig : BitVec 9) (n : BitVec 16) :
    opcode (decodeMbWord d sgn b15 ig n) = 1 ∧ depthField (decodeMbWord d sgn b15 ig n) = d ∧
    bitOf (decodeMbWord d sgn b15 ig n) 26 = sgn ∧ bitOf (decodeMbWord d sgn b15 ig n) 25 = b15 ∧
    (decodeMbWord d sgn b15 ig n).extractLsb' 16 9 = ig ∧ countField (decodeMbWord d sgn b15 ig n) = n := by
  refine ⟨?_, ?_, bitOf_eq_of_field ?_, bitOf_eq_of_field ?_, ?_, ?_⟩ <;>
    simp (disch := decide) only [opcode, depthField, countField, lowHalf, decodeMbWord,
      BitVec.extractLsb'_append_eq_of_le, BitVec.extractLsb'_append_eq_of_add_le] <;>
    simp

/-- The layout of R83. -/
@[simp] theorem setQuantWord_fields (ig : BitVec 28) (color : Bool) :
    opcode (setQuantWord ig color) = 2 ∧ (setQuantWord ig color).extractLsb' 1 28 = ig ∧
    bitOf (setQuantWord ig color) 0 = color := by
  refine ⟨?_, ?_, bitOf_eq_of_field ?_⟩ <;>
    simp (disch := decide) only [opcode, setQuantWord, BitVec.extractLsb'_append_eq_of_le,
      BitVec.extractLsb'_append_eq_of_add_le] <;>
    simp

/-- The layout of R84 and R85. -/
@[simp] theorem plainCommandWord_fields (op : BitVec 3) (ig : BitVec 29) :
    opcode (plainCommandWord op ig) = op ∧ (plainCommandWord op ig).extractLsb' 0 29 = ig :=
  ⟨BitVec.extractLsb'_append_eq_left, BitVec.extractLsb'_append_eq_right⟩

/-- The layout of R38. -/
@[simp] theorem controlWord_fields (reset enIn enOut : Bool) (ig : BitVec 29) :
    bitOf (controlWord reset enIn enOut ig) 31 = reset ∧ bitOf (controlWord reset enIn enOut ig) 30 = enIn ∧
    bitOf (controlWord reset enIn enOut ig) 29 = enOut ∧ (controlWord reset enIn enOut ig).extractLsb' 0 29 = ig := by
  refine ⟨bitOf_eq_of_field ?_, bitOf_eq_of_field ?_, bitOf_eq_of_field ?_, ?_⟩ <;>
    simp (disch := decide) only [controlWord, BitVec.extractLsb'_append_eq_of_le,
      BitVec.extractLsb'_append_eq_of_add_le] <;>
    simp

/-! ## A word is the concatenation of its fields -/

theorem decodeMbWord_of_opcode {w : Word} (h : opcode w = 1) :
    decodeMbWord (depthField w) (bitOf w 26) (bitOf w 25) (w.extractLsb' 16 9) (countField w) = w := by
  rw [decodeMbWord, ← h]
  simp (disch := decide) only [opcode, depthField, countField, lowHalf, ofBool_bitOf, Depth.code_ofCode,
    BitVec.extractLsb'_append_extractLsb'_eq_extractLsb', BitVec.extractLsb'_eq_self]

theorem setQuantWord_of_opcode {w : Word} (h : opcode w = 2) :
    setQuantWord (w.extractLsb' 1 28) (bitOf w 0) = w := by
  rw [setQuantWord, ← h]
  simp (disch := decide) only [opcode, ofBool_bitOf, BitVec.extractLsb'_append_extractLsb'_eq_extractLsb',
    BitVec.extractLsb'_eq_self]

theorem plainCommandWord_of_opcode {w : Word} {op : BitVec 3} (h : opcode w = op) :
    plainCommandWord op (w.extractLsb' 0 29) = w :=
  h ▸ BitVec.extractLsb'_append_extractLsb'

theorem controlWord_of_fields (w : Word) :
    controlWord (bitOf w 31) (bitOf w 30) (bitOf w 29) (w.extractLsb' 0 29) = w := by
  simp (disch := decide) only [controlWord, ofBool_bitOf, BitVec.extractLsb'_append_extractLsb'_eq_extractLsb',
    BitVec.extractLsb'_eq_self]

/-- The opcode of the last row of R85, by exclusion. -/
theorem opcode_eq_seven {op : BitVec 3} (h1 : op ≠ 1) (h2 : op ≠ 2) (h3 : op ≠ 3) (h0 : op ≠ 0) (h4 : op ≠ 4)
    (h5 : op ≠ 5) (h6 : op ≠ 6) : op = 7 := by
  bv_omega

/-! ## Decoder and encoder -/

/-- Settles O53: the operation of each row is a port write of its word, whose fields are the operands. -/
theorem decodeOfEncode : Obligations.DecodeOfEncode := by
  intro i hi
  cases i with
  | decodeMb d sgn b15 ig n => simp [encode, Instr.mode, decodeDataWrite, decodeCommand]
  | setQuant ig color => simp [encode, Instr.mode, decodeDataWrite, decodeCommand]
  | setIdct ig => simp [encode, Instr.mode, decodeDataWrite, decodeCommand]
  | nopCmd0 ig => simp [encode, Instr.mode, decodeDataWrite, decodeCommand]
  | nopCmd4 ig => simp [encode, Instr.mode, decodeDataWrite, decodeCommand]
  | nopCmd5 ig => simp [encode, Instr.mode, decodeDataWrite, decodeCommand]
  | nopCmd6 ig => simp [encode, Instr.mode, decodeDataWrite, decodeCommand]
  | nopCmd7 ig => simp [encode, Instr.mode, decodeDataWrite, decodeCommand]
  | paramData w => exact decode_portWrite_data _ w
  | paramQuant w => exact decode_portWrite_data _ w
  | paramIdct w => exact decode_portWrite_data _ w
  | paramNone w => exact decode_portWrite_data _ w
  | wrData w => exact decode_portWrite_data _ w
  | rdData => rfl
  | wrCtrl reset enIn enOut ig => simp [encode, decodeControl]
  | rdStatus => rfl
  | tick k => exact if_pos hi

/-- A command word, whatever its opcode, is encoded back bit for bit. -/
theorem encode_decodeCommand (w : Word) :
    encode (decodeCommand w) = portWrite 0 w ∧ (decodeCommand w).wellFormed = true := by
  simp only [decodeCommand]
  split_ifs with h1 h2 h3 h0 h4 h5 h6
  · exact ⟨congrArg (portWrite 0) (decodeMbWord_of_opcode h1), rfl⟩
  · exact ⟨congrArg (portWrite 0) (setQuantWord_of_opcode h2), rfl⟩
  · exact ⟨congrArg (portWrite 0) (plainCommandWord_of_opcode h3), rfl⟩
  · exact ⟨congrArg (portWrite 0) (plainCommandWord_of_opcode h0), rfl⟩
  · exact ⟨congrArg (portWrite 0) (plainCommandWord_of_opcode h4), rfl⟩
  · exact ⟨congrArg (portWrite 0) (plainCommandWord_of_opcode h5), rfl⟩
  · exact ⟨congrArg (portWrite 0) (plainCommandWord_of_opcode h6), rfl⟩
  · exact ⟨congrArg (portWrite 0) (plainCommandWord_of_opcode (opcode_eq_seven h1 h2 h3 h0 h4 h5 h6)), rfl⟩

/-- A data-port write is encoded back from the instruction it is read as in any mode (R86). -/
theorem encode_decodeDataWrite (m : Mode) (w : Word) :
    encode (decodeDataWrite m w) = portWrite 0 w ∧ (decodeDataWrite m w).wellFormed = true := by
  cases m with
  | port => exact ⟨rfl, rfl⟩
  | command => exact encode_decodeCommand w
  | param c => cases c <;> exact ⟨rfl, rfl⟩

/-- Settles O54, over the five kinds of operation the decoder takes. -/
theorem encodeOfDecode : Obligations.EncodeOfDecode := by
  intro m op i h
  rcases decode_ok_cases h with
    ⟨w, rfl, rfl⟩ | ⟨w, rfl, rfl⟩ | ⟨rfl, rfl⟩ | ⟨rfl, rfl⟩ | ⟨k, rfl, hk, rfl⟩
  · exact encode_decodeDataWrite m w
  · exact ⟨congrArg (portWrite 4) (controlWord_of_fields w), rfl⟩
  · exact ⟨rfl, rfl⟩
  · exact ⟨rfl, rfl⟩
  · exact ⟨rfl, hk⟩

/-- Settles O57: five closed words, read by the decoder. -/
theorem knownWordsDecode : Obligations.KnownWordsDecode := by
  unfold Obligations.KnownWordsDecode
  decide

end Sys2Proof

/-! SUPPORT. The block invariants (10_state.md R25 to R29, 41_commands.md R126, R129, 42_decode_step.md R153,
60_exceptions.md R202): what one operation does to a block, and that each keeps `BlockInv`. -/
namespace Sys2Proof.Machine

/-! ## What one operation does -/

/-- What the operation of the host does to a block `s` that answers a next state: a data-port write is a command
while idle and a parameter while busy (R86). -/
inductive OpEffect (s : State) : HostOp → State → Prop where
  | command (w : Word) (hidle : Idle s) : OpEffect s (portWrite 0 w) (commandDispatch w s)
  | parameter (w : Word) (hbusy : commandBusy s = true) : OpEffect s (portWrite 0 w) (parameterWrite w s)
  | control (w : Word) : OpEffect s (portWrite 4 w) (writeControl (bitOf w 31) (bitOf w 30) (bitOf w 29) s)
  | read : OpEffect s (.busRead 0 4) (readData s)
  | status : OpEffect s (.busRead 4 4) (returnRead (statusWord s) s)
  | tick (k : TickBudget) : OpEffect s (.tick k) (decodeStep k s)
  | notAdmitted (op : HostOp) : OpEffect s op (raise .badAccess s)

theorem opEffect_of_decode {s : State} {op : HostOp} {i : Instr} (h : decode (writeMode s) op = .ok i) :
    OpEffect s op (effect i s) := by
  rcases decode_ok_cases h with
    ⟨w, rfl, rfl⟩ | ⟨w, rfl, rfl⟩ | ⟨rfl, rfl⟩ | ⟨rfl, rfl⟩ | ⟨k, rfl, -, rfl⟩
  · cases hbusy : commandBusy s with
    | false =>
      rw [writeMode_idle hbusy, decodeDataWrite, effect_decodeCommand]
      exact .command w hbusy
    | true =>
      rw [writeMode_busy hbusy, decodeDataWrite, effect_decodeParam]
      exact .parameter w hbusy
  · exact .control w
  · exact .read
  · exact .status
  · exact .tick k

/-- A step that answers a next state keeps the state, or takes the first pending operation. -/
theorem step_opEffect {s t : State} (h : step s = .next t) :
    t = s ∨ ∃ op rest, s.pending = op :: rest ∧ OpEffect (withPending rest s) op t := by
  obtain ⟨-, ⟨-, rfl⟩ | ⟨op, rest, hpending, ⟨i, hdecode, rfl⟩ | ⟨-, rfl⟩⟩⟩ := step_cases h
  · exact .inl rfl
  · exact .inr ⟨op, rest, hpending, opEffect_of_decode hdecode⟩
  · exact .inr ⟨op, rest, hpending, .notAdmitted op⟩

/-! ## Where the invariants come from -/

/-- Every field the invariants do not speak of may change. -/
theorem BlockInv.of_frame {s t : State} (h : BlockInv s)
    (ht : t = { s with
      outputSigned := t.outputSigned, outputSetBit15 := t.outputSetBit15, currentBlock := t.currentBlock,
      enableDataIn := t.enableDataIn, enableDataOut := t.enableDataOut, tables := t.tables, engine := t.engine,
      fault := t.fault, pending := t.pending, lastRead := t.lastRead, draws := t.draws }) : BlockInv t := by
  rw [ht]
  exact { h with }

/-- A block with an empty queue, an empty buffer and a restarted counter meets the invariants when its count suits
its command. -/
theorem BlockInv.of_empty {s : State} (hvalid : s.params.Valid) (hqueue : s.inQueue = [])
    (hactive : s.decodingActive = false) (hbuf : s.outBuf = []) (hptr : s.ptr = 0) (hphase : s.phase = 0)
    (hcnt : s.cnt = 0) (hnone : s.command = .none → s.parameterCount = 0)
    (hload : TableLoad s → s.parameterCount.toNat ≤ 32) : BlockInv s where
  params_valid := hvalid
  queue_bound := by simp [hqueue]
  active_queue := by simp [hactive]
  queue_active := by simp [hqueue]
  cursor_bound := by simp [hptr]
  empty_cursor _ := ⟨hptr, hphase⟩
  phase_depth := by simp [hphase]
  buffer_size := .inl hbuf
  decode_only _ := ⟨hqueue, hbuf⟩
  none_count := hnone
  cnt_bound := by simp [hcnt]
  load_bound h := by simpa [hcnt] using hload h

/-- Settles O2: the power-on block is empty. -/
theorem powerOnMeetsInvariants : Obligations.PowerOnMeetsInvariants :=
  fun _ hvalid => .of_empty hvalid rfl rfl rfl rfl rfl rfl (fun _ => rfl) (by simp [State.powerOn])

/-! ## Each operation keeps the invariants -/

/-- An idle block is empty, so a dispatch starts from an empty block (R120). -/
theorem commandDispatch_keeps_inv {w : Word} {s : State} (h : BlockInv s) (hidle : Idle s) :
    BlockInv (commandDispatch w s) := by
  obtain ⟨hcount, -, hactive, hbuf⟩ := idle_iff.1 hidle
  obtain ⟨hptr, hphase⟩ := h.empty_cursor hbuf
  rcases commandDispatch_cases w s with ⟨-, he⟩ | ⟨-, he⟩ | ⟨-, he⟩ | ⟨-, -, -, he⟩ <;> rw [he]
  · exact .of_empty h.params_valid rfl rfl rfl rfl rfl rfl (by simp) (by simp)
  · exact .of_empty h.params_valid rfl hactive hbuf hptr hphase rfl (by simp)
      (fun _ => by cases bitOf w 0 <;> simp)
  · exact .of_empty h.params_valid rfl hactive hbuf hptr hphase rfl (by simp) (by simp)
  · exact .of_empty h.params_valid rfl hactive hbuf hptr hphase rfl (fun _ => hcount) (by simp)

/-- A queued word keeps the queue within its depth, and starts decoding when the queue is full or the stream has
ended (R126). -/
theorem dataWord_keeps_inv {w : Word} {s : State} (h : BlockInv s) (hcommand : s.command = .decodeMacroblock)
    (hroom : s.inQueue.length ≠ s.params.inFifoDepth) :
    BlockInv (dataWord w { s with parameterCount := s.parameterCount - 1 }) := by
  have hactive := dataWord_active (w := w) (s := { s with parameterCount := s.parameterCount - 1 })
  rw [dataWord_frame]
  exact { h with
    queue_bound := by
      rw [List.length_append]
      exact Nat.lt_of_le_of_ne h.queue_bound hroom
    active_queue := by simp
    queue_active := fun _ hend => hactive.2 (.inr (by simpa using hend))
    decode_only := fun hne => absurd hcommand hne
    none_count := by simp [hcommand]
    load_bound := by simp [hcommand] }

/-- A table word moves the counter up as the count goes down; the tables themselves are no matter (R25, R202). -/
theorem tableWord_keeps_inv {s t : State} (h : BlockInv s) (hcount : s.parameterCount ≠ 0) (hload : TableLoad s)
    (ht : t = { s with parameterCount := s.parameterCount - 1, cnt := s.cnt + 1, tables := t.tables }) :
    BlockInv t := by
  have hbound := h.load_bound hload
  have hcount' := count_sub_one_toNat hcount
  have hpos : s.parameterCount.toNat ≠ 0 := fun h0 => hcount (BitVec.eq_of_toNat_eq h0)
  obtain ⟨hqueue, -⟩ := h.decode_only (by rcases hload with hc | hc <;> simp [hc])
  rw [ht]
  exact { h with
    queue_active := by simp [hqueue]
    none_count := by rcases hload with hc | hc <;> simp [hc]
    cnt_bound := by
      show s.cnt + 1 ≤ 32
      omega
    load_bound := fun _ => by
      show s.cnt + 1 + (s.parameterCount - 1).toNat ≤ 32
      omega }

/-- An accepted parameter word, routed by the command; under None there is none to accept (R129). -/
theorem routeWord_keeps_inv {c : Command} {w : Word} {s : State} (h : BlockInv s) (hc : s.command = c)
    (hcount : s.parameterCount ≠ 0)
    (hroom : ¬(s.command = .decodeMacroblock ∧ s.inQueue.length = s.params.inFifoDepth)) :
    BlockInv (routeWord c w { s with parameterCount := s.parameterCount - 1 }) := by
  cases c with
  | decodeMacroblock => exact dataWord_keeps_inv h hc (fun hfull => hroom ⟨hc, hfull⟩)
  | setQuantTable => exact tableWord_keeps_inv h hcount (.inl hc) rfl
  | setIdct => exact tableWord_keeps_inv h hcount (.inr hc) rfl
  | none => exact absurd (h.none_count hc) hcount

/-- A parameter word is refused with a fault record, or accepted (R125). -/
theorem parameterWrite_keeps_inv {w : Word} {s : State} (h : BlockInv s) : BlockInv (parameterWrite w s) := by
  unfold parameterWrite
  rcases acceptParameter_cases (routeWord s.command w) s with ⟨-, he⟩ | ⟨-, -, -, he⟩ | ⟨hcount, hroom, he⟩ <;>
    rw [he]
  · exact h.of_frame rfl
  · exact h.of_frame rfl
  · exact routeWord_keeps_inv h rfl hcount hroom

theorem writeControl_keeps_inv {reset enIn enOut : Bool} {s : State} (h : BlockInv s) :
    BlockInv (writeControl reset enIn enOut s) := by
  cases reset with
  | false => exact h.of_frame rfl
  | true => exact .of_empty h.params_valid rfl rfl rfl rfl rfl rfl (fun _ => rfl) (by simp [writeControl])

/-- The phase moves at 24-bit depth only (R176). -/
theorem nextPhase_ne_zero {d : Depth} {phase : Fin 3} (h : phase ≠ 0 → d = .bits24) (hn : nextPhase d phase ≠ 0) :
    d = .bits24 := by
  cases d with
  | bits24 => rfl
  | bits4 => exact h hn
  | bits8 => exact h hn
  | bits15 => exact h hn

/-- A packed read clears the buffer with its cursor and phase, or leaves the cursor within it (R177). -/
theorem readData_keeps_inv {s : State} (h : BlockInv s) : BlockInv (readData s) := by
  unfold readData
  split
  · exact h.of_frame rfl
  next hbuf =>
    rcases packRead_cases s with ⟨-, he⟩ | ⟨hlt, he⟩ <;> rw [he]
    · exact { h with
        cursor_bound := Nat.le_refl 0
        empty_cursor := fun _ => ⟨rfl, rfl⟩
        phase_depth := fun hne => absurd rfl hne
        buffer_size := .inl rfl
        decode_only := fun hne => ⟨(h.decode_only hne).1, rfl⟩ }
    · exact { h with
        cursor_bound := Nat.le_of_lt hlt
        empty_cursor := fun hempty => absurd hempty hbuf
        phase_depth := nextPhase_ne_zero h.phase_depth }

/-- A working decode step shortens the queue, fills the empty buffer with at most one macroblock, and stays active
exactly while words are left (R154). -/
theorem decodeStep_keeps_inv {k : TickBudget} {s : State} (h : BlockInv s) : BlockInv (decodeStep k s) := by
  by_cases hnoop : s.decodingActive = false ∨ s.outBuf ≠ []
  · rwa [decodeStep_noop hnoop]
  obtain ⟨hactive, hbuf⟩ : s.decodingActive = true ∧ s.outBuf = [] := by simpa using hnoop
  obtain ⟨hptr, hphase⟩ := h.empty_cursor hbuf
  have hdecode : s.command = .decodeMacroblock :=
    by_contra fun hne => h.active_queue hactive (h.decode_only hne).1
  have hbound := h.queue_bound
  obtain ⟨fed, hfed, -⟩ := decodeLoop_queue (tickRounds k s) s
  have hsize := decodeLoop_outBuf (tickRounds k s) s hbuf
  rw [decodeStep_active hactive hbuf, settleActive_frame, decodeLoop_frame]
  exact { h with
    queue_bound := by
      rw [hfed, List.length_append] at hbound
      exact Nat.le_trans (Nat.le_add_left _ _) hbound
    active_queue := by simp
    queue_active := fun hne _ => by simpa [hactive] using hne
    cursor_bound := by simp [hptr]
    empty_cursor := fun _ => ⟨hptr, hphase⟩
    buffer_size := hsize
    decode_only := fun hne => absurd hdecode hne }

theorem opEffect_keeps_inv {s t : State} {op : HostOp} (h : BlockInv s) (ht : OpEffect s op t) : BlockInv t := by
  cases ht with
  | command w hidle => exact commandDispatch_keeps_inv h hidle
  | parameter w hbusy => exact parameterWrite_keeps_inv h
  | control w => exact writeControl_keeps_inv h
  | read => exact readData_keeps_inv h
  | status => exact h.of_frame rfl
  | tick k => exact decodeStep_keeps_inv h
  | notAdmitted op => exact h.of_frame rfl

/-- Settles O3: taking an operation off the pending list keeps the invariants, and so does its effect. -/
theorem stepKeepsInvariants : Obligations.StepKeepsInvariants := by
  intro s t h hstep
  rcases step_opEffect hstep with rfl | ⟨op, rest, -, hop⟩
  · exact h
  · exact opEffect_keeps_inv (s := withPending rest s) (h.of_frame rfl) hop

end Sys2Proof.Machine

/-! SUPPORT. The derived flags and the Status word (10_state.md R30 to R37): the word is the concatenation of its
fields, and the flags of a block whose queue is empty. -/
namespace Sys2Proof.Machine

/-! ## The Status word -/

/-- The layout of R37, most significant field first. -/
theorem statusWord_eq_append (s : State) :
    statusWord s =
      BitVec.ofBool (dataOutFifoEmpty s) ++ BitVec.ofBool (dataInFifoFull s) ++ BitVec.ofBool (commandBusy s) ++
      BitVec.ofBool (dataInRequest s) ++ BitVec.ofBool (dataOutRequest s) ++ s.colorDepth.code ++
      BitVec.ofBool s.outputSigned ++ BitVec.ofBool s.outputSetBit15 ++ 0#4 ++ s.currentBlock.code ++
      s.parameterCount := by
  refine BitVec.eq_of_getLsbD_eq fun i hi => ?_
  simp only [statusWord, zextBit, BitVec.getLsbD_or, BitVec.getLsbD_shiftLeft, BitVec.getLsbD_setWidth,
    BitVec.getLsbD_append, BitVec.getLsbD_ofBool, BitVec.getLsbD_zero]
  interval_cases i <;> simp

theorem statusWord_fields (s : State) :
    bitOf (statusWord s) 31 = dataOutFifoEmpty s ∧ bitOf (statusWord s) 30 = dataInFifoFull s ∧
    bitOf (statusWord s) 29 = commandBusy s ∧ bitOf (statusWord s) 28 = dataInRequest s ∧
    bitOf (statusWord s) 27 = dataOutRequest s ∧ (statusWord s).extractLsb' 25 2 = s.colorDepth.code ∧
    bitOf (statusWord s) 24 = s.outputSigned ∧ bitOf (statusWord s) 23 = s.outputSetBit15 ∧
    (statusWord s).extractLsb' 19 4 = 0 ∧ (statusWord s).extractLsb' 16 3 = s.currentBlock.code ∧
    (statusWord s).extractLsb' 0 16 = s.parameterCount := by
  rw [statusWord_eq_append]
  refine ⟨bitOf_eq_of_field ?_, bitOf_eq_of_field ?_, bitOf_eq_of_field ?_, bitOf_eq_of_field ?_,
    bitOf_eq_of_field ?_, ?_, bitOf_eq_of_field ?_, bitOf_eq_of_field ?_, ?_, ?_, ?_⟩ <;>
    simp (disch := decide) only [BitVec.extractLsb'_append_eq_of_le, BitVec.extractLsb'_append_eq_of_add_le] <;>
    simp

/-- Settles O22: each bit of the word is its flag, and each flag is its definition. -/
theorem statusReadResult : Obligations.StatusReadResult := by
  intro s hlive
  obtain ⟨hempty, hfull, hbusy, hin, hout, hdepth, hsigned, hb15, hzero, hblock, hcount⟩ := statusWord_fields s
  simp only [bitOf] at hempty hfull hbusy hin hout hsigned hb15
  refine ⟨statusWord s, exec_live hlive, ?_, ?_, ?_, ?_, ?_, hdepth, hsigned, hb15, hzero, hblock, hcount⟩
  · rw [hempty, dataOutFifoEmpty, decide_eq_true_eq]
  · rw [hfull, dataInFifoFull_iff]
  · simp only [hbusy, commandBusy, Bool.or_eq_true, decide_eq_true_eq, or_assoc]
  · rw [hin, dataInRequest_iff, ← Bool.not_eq_true, dataInFifoFull_iff]
  · rw [hout, dataOutRequest_iff]

/-! ## The flags of a block with an empty queue -/

/-- With no word queued, `dataInFifoFull` says that a recorded command expects no more words (R31). -/
theorem dataInFifoFull_of_queue_nil {s : State} (hvalid : s.params.Valid) (hqueue : s.inQueue = []) :
    dataInFifoFull s = true ↔ s.command ≠ .none ∧ s.parameterCount = 0 := by
  rw [dataInFifoFull_iff, hqueue, or_iff_right]
  exact (Nat.ne_of_gt hvalid).symm

/-- While a recorded command expects words, or none is recorded, the block asks for words as `enableDataIn` says
(R32). -/
theorem inputFlags_of_queue_nil {s : State} (hvalid : s.params.Valid) (hqueue : s.inQueue = [])
    (hexpect : s.command = .none ∨ s.parameterCount ≠ 0) :
    dataInFifoFull s = false ∧ dataInRequest s = s.enableDataIn := by
  have hfull : dataInFifoFull s = false := by
    rw [← Bool.not_eq_true, dataInFifoFull_of_queue_nil hvalid hqueue]
    tauto
  exact ⟨hfull, by simp [dataInRequest, hfull]⟩

/-- After DECODE_MB the block has no pixels and waits for its `n` words (R121). -/
theorem flags_dispatchDecodeMb {s t : State} {d : Depth} {sgn b15 : Bool} {n : BitVec 16} (hvalid : s.params.Valid)
    (ht : t = dispatchDecodeMb d sgn b15 n (beginDispatch s)) :
    dataOutFifoEmpty t = true ∧ dataOutRequest t = false ∧ (commandBusy t = true ↔ 0 < n.toNat) ∧
    (dataInFifoFull t = true ↔ n = 0) ∧ (dataInRequest t = true ↔ 0 < n.toNat ∧ s.enableDataIn = true) := by
  have hfull : dataInFifoFull t = true ↔ n = 0 := by
    rw [dataInFifoFull_of_queue_nil (by simpa [ht] using hvalid) (by simp [ht])]
    simp [ht]
  have hpos : n ≠ 0 ↔ 0 < n.toNat := by
    rw [Nat.pos_iff_ne_zero, not_iff_not, ← BitVec.toNat_inj]
    rfl
  refine ⟨by simp [ht, dataOutFifoEmpty], by simp [ht, dataOutRequest, dataOutFifoEmpty], ?_, hfull, ?_⟩
  · rw [commandBusy_iff, ← hpos]
    simp [ht]
  · rw [dataInRequest_iff, ← Bool.not_eq_true, hfull, ← hpos]
    simp [ht]

/-- After a table command the block is busy and waits for its words (R122, R123). -/
theorem flags_table_command {s : State} {i : Instr} (hvalid : s.params.Valid)
    (hi : (∃ ig c, i = .setQuant ig c) ∨ (∃ ig, i = .setIdct ig)) :
    commandBusy (effect i s) = true ∧ dataInFifoFull (effect i s) = false ∧
    dataInRequest (effect i s) = s.enableDataIn := by
  rcases hi with ⟨ig, color, rfl⟩ | ⟨ig, rfl⟩
  · have hcount : (effect (.setQuant ig color) s).parameterCount ≠ 0 := by cases color <;> simp [effect]
    exact ⟨commandBusy_iff.2 (.inl hcount), inputFlags_of_queue_nil hvalid rfl (.inr hcount)⟩
  · have hcount : (effect (.setIdct ig) s).parameterCount ≠ 0 := by simp [effect]
    exact ⟨commandBusy_iff.2 (.inl hcount), inputFlags_of_queue_nil hvalid rfl (.inr hcount)⟩

/-- After an unknown opcode an idle block is still idle and waits for a command (R124). -/
theorem flags_dispatchNone {s : State} (hvalid : s.params.Valid) (hidle : Idle s) :
    commandBusy (dispatchNone (beginDispatch s)) = false ∧
    dataInFifoFull (dispatchNone (beginDispatch s)) = false ∧
    dataInRequest (dispatchNone (beginDispatch s)) = s.enableDataIn := by
  obtain ⟨hcount, -, hactive, hbuf⟩ := idle_iff.1 hidle
  exact ⟨idle_iff.2 ⟨hcount, rfl, hactive, hbuf⟩, inputFlags_of_queue_nil hvalid rfl (.inl rfl)⟩

/-- Settles O12, from the flags each dispatch leaves. -/
theorem flagsAfterDispatch : Obligations.FlagsAfterDispatch := by
  intro s hlive hidle hvalid
  refine ⟨fun d sgn b15 ig n => ⟨_, exec_live hlive, flags_dispatchDecodeMb hvalid rfl⟩,
    fun i hi => ⟨_, exec_live hlive, flags_table_command hvalid hi⟩, ?_⟩
  rintro i ⟨ig, rfl | rfl | rfl | rfl | rfl⟩ <;>
    exact ⟨_, exec_live hlive, flags_dispatchNone hvalid hidle⟩

/-! ## The full reset -/

/-- Settles O21: the two control writes, by the definition of the full reset (R230). -/
theorem controlWriteResult : Obligations.ControlWriteResult :=
  fun _ _ _ _ hlive => ⟨exec_live hlive, exec_live hlive⟩

/-- The Status word after a full reset (R230): no pixels, block code Cr, and words asked for as `enableDataIn`
says. -/
theorem statusWord_fullReset {s : State} (hvalid : s.params.Valid) :
    statusWord (fullReset s) = if s.enableDataIn then 0x90040000 else 0x80040000 := by
  obtain ⟨hfull, hrequest⟩ := inputFlags_of_queue_nil (s := fullReset s) hvalid rfl (.inl rfl)
  have hbusy : Idle (fullReset s) := idle_iff.2 ⟨rfl, rfl, rfl, rfl⟩
  have hempty : dataOutFifoEmpty (fullReset s) = true := rfl
  have hout : dataOutRequest (fullReset s) = false := rfl
  simp only [statusWord, hempty, hfull, hbusy, hrequest, hout, fullReset_enableDataIn, fullReset_colorDepth,
    fullReset_outputSigned, fullReset_outputSetBit15, fullReset_currentBlock, fullReset_parameterCount]
  cases s.enableDataIn <;> decide

theorem stage_fullReset (s : State) : stage (fullReset s) = .idle :=
  if_pos (idle_iff.2 ⟨rfl, rfl, rfl, rfl⟩)

/-- Settles O41: the reset block is idle, with the Status word of R230. -/
theorem resetAbandonsCommand : Obligations.ResetAbandonsCommand :=
  fun s enIn enOut _ hlive hvalid =>
    ⟨writeControl true enIn enOut s, exec_live hlive, stage_fullReset _,
      statusWord_fullReset (s := { s with enableDataIn := enIn, enableDataOut := enOut }) hvalid⟩

end Sys2Proof.Machine

/-! SUPPORT. What single fields keep over an operation: a recorded model fault stops the block (10_state.md R42), the
Decode Engine and its contract (42_decode_step.md R150, R151), the writers of the Table Store (R24), and the DMA
collaborator's contract (40_register_interface.md R105). -/
namespace Sys2Proof.Machine

/-! ## A recorded model fault -/

/-- Settles O6, by the model's lemmas about a faulted state and about a step with nothing pending. -/
theorem faultedBlockHasNoStep : Obligations.FaultedBlockHasNoStep :=
  ⟨fun s _ h => ⟨step_faulted h, fun i => (exec_eq_perform i s).trans (perform_faulted h)⟩,
    fun _ hlive hpending => step_nil hlive hpending⟩

/-! ## The engine -/

theorem blockCode_le_five (b : Block) : b.code.toNat ≤ 5 := by cases b <;> decide

/-- Settles O38: clause 2 is `feed_pixels` with the size of each depth, clause 3 holds of every block. -/
theorem engineMeetsContract : Obligations.EngineMeetsContract := by
  intro p e w d sgn t
  refine ⟨?_, blockCode_le_five _⟩
  rcases feed_pixels p e w d sgn t with h | h
  · exact .inl h
  · rw [h]
    cases d <;> simp [mbPixels, Depth.isMono]

/-- A parameter word, accepted or faulting, leaves the engine alone. -/
theorem acceptParameter_routeWord_engine (c : Command) (w : Word) (s : State) :
    (acceptParameter (routeWord c w) s).engine = s.engine := by
  rcases acceptParameter_cases (routeWord c w) s with ⟨-, h⟩ | ⟨-, -, -, h⟩ | ⟨-, -, h⟩ <;> rw [h]
  · rfl
  · rfl
  · obtain ⟨-, -, -, -, -, hengine, -⟩ := routeWord_frame c w { s with parameterCount := s.parameterCount - 1 }
    exact hengine

theorem commandDispatch_engine (w : Word) (s : State) :
    (commandDispatch w s).engine = s.engine ∨ (commandDispatch w s).engine = engineInit := by
  rcases commandDispatch_cases w s with ⟨-, h⟩ | ⟨-, h⟩ | ⟨-, h⟩ | ⟨-, -, -, h⟩ <;> simp [h]

/-- A data-port read writes the buffer, its cursor and phase, the read value and the draw number only (R101, R171). -/
theorem readData_frame (s : State) :
    readData s =
      { s with outBuf := (readData s).outBuf, ptr := (readData s).ptr, phase := (readData s).phase,
               lastRead := (readData s).lastRead, draws := (readData s).draws } := by
  unfold readData
  split
  · rfl
  · rcases packRead_cases s with ⟨-, h⟩ | ⟨-, h⟩ <;> rw [h]

/-- Only a decode step gives the engine a state that is neither its own nor the initial one (R151, R154). -/
theorem effect_engine (i : Instr) (s : State) :
    (effect i s).engine = s.engine ∨ (effect i s).engine = engineInit ∨ ∃ k, i = .tick k := by
  cases i with
  | decodeMb d sgn b15 ig n => exact .inr (.inl rfl)
  | setQuant ig color => exact .inl rfl
  | setIdct ig => exact .inl rfl
  | nopCmd0 ig => exact .inl rfl
  | nopCmd4 ig => exact .inl rfl
  | nopCmd5 ig => exact .inl rfl
  | nopCmd6 ig => exact .inl rfl
  | nopCmd7 ig => exact .inl rfl
  | paramData w => exact .inl (acceptParameter_routeWord_engine .decodeMacroblock w s)
  | paramQuant w => exact .inl (acceptParameter_routeWord_engine .setQuantTable w s)
  | paramIdct w => exact .inl (acceptParameter_routeWord_engine .setIdct w s)
  | paramNone w => exact .inl (acceptParameter_routeWord_engine .none w s)
  | wrData w =>
    simp only [effect]
    split
    · exact .inl (acceptParameter_routeWord_engine s.command w s)
    · exact (commandDispatch_engine w s).imp_right .inl
  | rdData => exact .inl (by rw [effect, readData_frame])
  | wrCtrl reset enIn enOut ig =>
    cases reset with
    | false => exact .inl rfl
    | true => exact .inr (.inl rfl)
  | rdStatus => exact .inl rfl
  | tick k => exact .inr (.inr ⟨k, rfl⟩)

/-- Settles O39: the two restarts by their effects, the rest by `effect_engine`. -/
theorem engineRestarts : Obligations.EngineRestarts := by
  intro s hlive
  refine ⟨fun d sgn b15 ig n => ⟨_, exec_live hlive, rfl⟩, fun enIn enOut ig => ⟨_, exec_live hlive, rfl⟩, ?_⟩
  intro i t h
  obtain ⟨-, rfl⟩ := exec_eq_next.1 h
  exact effect_engine i s

/-! ## The Table Store -/

/-- Only the words of a table load go to the tables (R127, R128). -/
theorem routeWord_tables {c : Command} (w : Word) (s : State) (hc : c ≠ .setQuantTable) (hc' : c ≠ .setIdct) :
    (routeWord c w s).tables = s.tables := by
  cases c with
  | decodeMacroblock => rw [routeWord, dataWord_frame]
  | none => rfl
  | setQuantTable => exact absurd rfl hc
  | setIdct => exact absurd rfl hc'

/-- A parameter word leaves the tables alone, or is an accepted word of a table load. -/
theorem parameterWrite_tables (w : Word) (s : State) :
    (parameterWrite w s).tables = s.tables ∨ (s.parameterCount ≠ 0 ∧ TableLoad s) := by
  unfold parameterWrite
  rcases acceptParameter_cases (routeWord s.command w) s with ⟨-, h⟩ | ⟨-, -, -, h⟩ | ⟨hcount, -, h⟩ <;> rw [h]
  · exact .inl rfl
  · exact .inl rfl
  · by_cases hload : TableLoad s
    · exact .inr ⟨hcount, hload⟩
    · obtain ⟨hquant, hidct⟩ := not_or.1 hload
      exact .inl (routeWord_tables w _ hquant hidct)

/-- A dispatch leaves the tables and the fault record alone (R120). -/
theorem commandDispatch_frame (w : Word) (s : State) :
    (commandDispatch w s).tables = s.tables ∧ (commandDispatch w s).fault = s.fault := by
  rcases commandDispatch_cases w s with ⟨-, h⟩ | ⟨-, h⟩ | ⟨-, h⟩ | ⟨-, -, -, h⟩ <;> simp [h]

theorem writeControl_tables (reset enIn enOut : Bool) (s : State) :
    (writeControl reset enIn enOut s).tables = s.tables := by
  cases reset <;> rfl

theorem decodeStep_tables (k : TickBudget) (s : State) : (decodeStep k s).tables = s.tables := by
  unfold decodeStep
  split
  · rfl
  · rw [settleActive_frame, decodeLoop_frame]

/-- One operation leaves the tables alone, or is an accepted parameter word of a table load (R24, R157, R231). -/
theorem opEffect_tables {s t : State} {op : HostOp} (h : OpEffect s op t) :
    t.tables = s.tables ∨
      ∃ w, op = portWrite 0 w ∧ commandBusy s = true ∧ s.parameterCount ≠ 0 ∧ TableLoad s := by
  cases h with
  | command w hidle => exact .inl (commandDispatch_frame w s).1
  | parameter w hbusy => exact (parameterWrite_tables w s).imp_right fun h => ⟨w, rfl, hbusy, h⟩
  | control w => exact .inl (writeControl_tables _ _ _ s)
  | read => exact .inl (by rw [readData_frame])
  | status => exact .inl rfl
  | tick k => exact .inl (decodeStep_tables k s)
  | notAdmitted op => exact .inl rfl

/-- Settles O42: the step's operation is the one that wrote the tables. -/
theorem tableStoreWriters : Obligations.TableStoreWriters := by
  intro s t hstep hne
  rcases step_opEffect hstep with rfl | ⟨op, rest, hpending, hop⟩
  · exact absurd rfl hne
  · rcases opEffect_tables hop with h | ⟨w, rfl, hbusy, hcount, hload⟩
    · exact absurd h hne
    · exact ⟨w, rest, hpending, hbusy, hcount, hload⟩

/-! ## The DMA collaborator -/

/-- A busy block without a recorded command expects no word and holds none, so it cannot be busy. -/
theorem BlockInv.command_ne_none {s : State} (h : BlockInv s) (hbusy : commandBusy s = true) :
    s.command ≠ .none := by
  intro hnone
  obtain ⟨hqueue, hbuf⟩ := h.decode_only (by simp [hnone])
  rcases commandBusy_iff.1 hbusy with hcount | hne | hactive | hne
  · exact hcount (h.none_count hnone)
  · exact hne hqueue
  · exact h.active_queue hactive hqueue
  · exact hne hbuf

/-- A busy block that asks for words has a count above 0 and room in its queue, so a word meets neither fault of
R125 and R126. -/
theorem parameterWrite_fault_of_request {s : State} (w : Word) (h : BlockInv s) (hbusy : commandBusy s = true)
    (hrequest : dataInRequest s = true) : (parameterWrite w s).fault = s.fault := by
  obtain ⟨hfull, -⟩ := dataInRequest_iff.1 hrequest
  rw [← Bool.not_eq_true, dataInFifoFull_iff, not_or, not_and] at hfull
  obtain ⟨hroom, hcount⟩ := hfull
  rw [parameterWrite, acceptParameter_ok (hcount (h.command_ne_none hbusy)) fun hc => hroom hc.2]
  obtain ⟨-, -, hfault, -⟩ := routeWord_frame s.command w { s with parameterCount := s.parameterCount - 1 }
  exact hfault

/-- Settles O48: a requested write is a command word or an accepted parameter word, and a data-port read never
faults. -/
theorem dmaContractNeverFaults : Obligations.DmaContractNeverFaults := by
  intro s op rest hinv hlive hpending hop
  cases hop with
  | feed w hrequest =>
    refine ⟨effect (decodeDataWrite (writeMode s) w) (withPending rest s),
      (step_cons hlive hpending (decode_portWrite_data _ w)).trans (exec_live hlive), ?_⟩
    cases hbusy : commandBusy s with
    | false =>
      rw [writeMode_idle hbusy, decodeDataWrite, effect_decodeCommand]
      exact (commandDispatch_frame w _).2.trans hlive
    | true =>
      rw [writeMode_busy hbusy, decodeDataWrite]
      have hinv' : BlockInv (withPending rest s) := hinv.of_frame rfl
      exact (congrArg State.fault (effect_decodeParam w (withPending rest s))).trans
        ((parameterWrite_fault_of_request w hinv' hbusy hrequest).trans hlive)
  | drain hrequest =>
    exact ⟨readData (withPending rest s), (step_cons hlive hpending rfl).trans (exec_live hlive),
      by rwa [readData_frame]⟩

end Sys2Proof.Machine

/-! SUPPORT. Memory: the block's window and the admission of an access (20_memory.md R60, R61), and where the words of
a table load land (R64, 41_commands.md R122, R123, R127, R128). -/
namespace Sys2Proof.Machine

/-! ## The window and admission -/

/-- Settles O58: both clauses by the bounds of the window. -/
theorem windowOffsets : Obligations.WindowOffsets := by
  intro p addr
  unfold windowOffset
  split
  next hin =>
    simp only [Option.some.injEq, reduceCtorEq, false_iff]
    exact ⟨fun off => by omega, by omega⟩
  next hout =>
    simp only [reduceCtorEq, false_iff, true_iff]
    exact ⟨fun off => by omega, by omega⟩

theorem decode_busWrite_notAdmitted (m : Mode) {off : Nat} {bytes : List Byte}
    (h : ¬(bytes.length = 4 ∧ (off = 0 ∨ off = 4))) : decode m (.busWrite off bytes) = .error .badAccess := by
  simp only [decode]
  split
  next =>
    obtain ⟨h0, h4⟩ : off ≠ 0 ∧ off ≠ 4 := by simpa using h
    rw [if_neg h0, if_neg h4]
  next => rfl

theorem decode_busRead_notAdmitted (m : Mode) {off n : Nat} (h : ¬(n = 4 ∧ (off = 0 ∨ off = 4))) :
    decode m (.busRead off n) = .error .badAccess := by
  simp only [decode]
  split
  next hn =>
    obtain ⟨h0, h4⟩ : off ≠ 0 ∧ off ≠ 4 := by simpa [hn] using h
    rw [if_neg h0, if_neg h4]
  next => rfl

/-- A pending access that is not admitted is taken, and leaves the fault record only (R61, R206). -/
theorem step_badAccess {s : State} {op : HostOp} {rest : List HostOp} (hlive : Live s)
    (hpending : s.pending = op :: rest) (hdecode : decode (writeMode s) op = .error .badAccess) :
    step s = .next (raise .badAccess (withPending rest s)) := by
  rw [step_live hlive, applyPending, hpending]
  simp only [applyOp, writeMode_withPending, hdecode]
  exact perform_live hlive

/-- Settles O7: the decoder admits neither access, and the step records the fault. -/
theorem unadmittedAccessIsBadAccess : Obligations.UnadmittedAccessIsBadAccess :=
  fun _ _ hlive =>
    ⟨fun _ _ h hpending => step_badAccess hlive hpending (decode_busWrite_notAdmitted _ h),
      fun _ _ h hpending => step_badAccess hlive hpending (decode_busRead_notAdmitted _ h)⟩

/-! ## Where a table word lands -/

/-- Luma entry `k` belongs to word `k / 4` of a quantisation load (R127). -/
theorem quantWord_lumaQ (w : Word) (s : State) (k : Nat) (hk : k < 64) :
    (quantWord w s).tables.lumaQ[k] =
      if k / 4 = s.cnt then quantByte s.params.quantByteOrder w (k % 4) else s.tables.lumaQ[k] := by
  by_cases hluma : s.cnt < 16
  · simp [quantWord, hluma, putQuantWord_getElem]
  · have hdrop : k / 4 ≠ s.cnt := by omega
    simp only [quantWord, hluma, hdrop, if_false]
    split <;> rfl

/-- Chroma entry `k` belongs to word `k / 4 + 16` of a quantisation load (R127). -/
theorem quantWord_chromaQ (w : Word) (s : State) (k : Nat) (hk : k < 64) :
    (quantWord w s).tables.chromaQ[k] =
      if k / 4 + 16 = s.cnt then quantByte s.params.quantByteOrder w (k % 4) else s.tables.chromaQ[k] := by
  by_cases hluma : s.cnt < 16
  · have hdrop : k / 4 + 16 ≠ s.cnt := by omega
    simp [quantWord, hluma, hdrop]
  · by_cases hchroma : s.cnt < 32
    · have hindex : k / 4 = s.cnt - 16 ↔ k / 4 + 16 = s.cnt := by omega
      simp [quantWord, hluma, hchroma, putQuantWord_getElem, hindex]
    · have hdrop : k / 4 + 16 ≠ s.cnt := by omega
      simp [quantWord, hluma, hchroma, hdrop]

theorem quantWord_idct (w : Word) (s : State) : (quantWord w s).tables.idct = s.tables.idct := by
  simp only [quantWord]
  split_ifs <;> rfl

/-- Half `j` of a coefficient word, in slot order (R128). -/
def idctHalf (o : HalfOrder) (w : Word) (j : Nat) : Half :=
  if j = 0 then (idctHalves o w).1 else (idctHalves o w).2

/-- Slot `k` belongs to word `k / 2` of a coefficient load (R128). -/
theorem idctWord_idct (w : Word) (s : State) (k : Nat) (hk : k < 64) :
    (idctWord w s).tables.idct[k] =
      if k / 2 = s.cnt then idctHalf s.params.idctHalfOrder w (k % 2) else s.tables.idct[k] := by
  by_cases hin : 2 * s.cnt + 1 < 64
  · have hodd : 2 * s.cnt + 1 = k ↔ k / 2 = s.cnt ∧ k % 2 = 1 := by omega
    have heven : 2 * s.cnt = k ↔ k / 2 = s.cnt ∧ k % 2 = 0 := by omega
    simp only [idctWord, hin, if_true, Vector.getElem_setIfInBounds, hodd, heven, idctHalf]
    rcases Nat.mod_two_eq_zero_or_one k with hmod | hmod <;> simp [hmod]
  · have hdrop : k / 2 ≠ s.cnt := by omega
    simp [idctWord, hin, hdrop]

theorem idctWord_quant (w : Word) (s : State) :
    (idctWord w s).tables.lumaQ = s.tables.lumaQ ∧ (idctWord w s).tables.chromaQ = s.tables.chromaQ := by
  simp only [idctWord]
  split <;> exact ⟨rfl, rfl⟩

/-- The bits of a coefficient (R128). -/
theorem idctHalf_eq {o : HalfOrder} {w : Word} {j : Nat} (hj : j < 2) :
    idctHalf o w j =
      match o with
      | .lowFirst => w.extractLsb' (16 * j) 16
      | .highFirst => w.extractLsb' (16 - 16 * j) 16 := by
  interval_cases j <;> cases o <;> rfl

/-! ## Accepted table words -/

/-- An accepted quantisation word writes the count, the counter and the tables only (R125, R127). -/
theorem acceptParameter_quantWord {s : State} (w : Word) (hcount : s.parameterCount ≠ 0)
    (hroom : ¬(s.command = .decodeMacroblock ∧ s.inQueue.length = s.params.inFifoDepth)) :
    acceptParameter (quantWord w) s =
      { s with parameterCount := s.parameterCount - 1, cnt := s.cnt + 1, tables := (quantWord w s).tables } :=
  acceptParameter_ok hcount hroom

/-- An accepted coefficient word writes the count, the counter and the tables only (R125, R128). -/
theorem acceptParameter_idctWord {s : State} (w : Word) (hcount : s.parameterCount ≠ 0)
    (hroom : ¬(s.command = .decodeMacroblock ∧ s.inQueue.length = s.params.inFifoDepth)) :
    acceptParameter (idctWord w) s =
      { s with parameterCount := s.parameterCount - 1, cnt := s.cnt + 1, tables := (idctWord w s).tables } :=
  acceptParameter_ok hcount hroom

/-- Settles O15: an accepted word's bytes land where `quantWord_lumaQ` and `quantWord_chromaQ` say. -/
theorem paramQuantResult : Obligations.ParamQuantResult := by
  intro s w hlive hcount hroom
  refine ⟨(quantWord w s).tables,
    (exec_live hlive).trans (congrArg _ (acceptParameter_quantWord w hcount hroom)), quantWord_idct w s, ?_⟩
  intro k hk b hmsb hlsb
  have hb : quantByte s.params.quantByteOrder w (k % 4) = b := by
    rw [quantByte_eq (Nat.mod_lt k (by decide))]
    cases ho : s.params.quantByteOrder with
    | msbFirst => exact (hmsb ho).symm
    | lsbFirst => exact (hlsb ho).symm
  rw [quantWord_lumaQ, quantWord_chromaQ, hb]
  exact ⟨rfl, rfl⟩

/-- Settles O16: an accepted word's halves land where `idctWord_idct` says. -/
theorem paramIdctResult : Obligations.ParamIdctResult := by
  intro s w hlive hcount hroom
  obtain ⟨hluma, hchroma⟩ := idctWord_quant w s
  refine ⟨(idctWord w s).tables,
    (exec_live hlive).trans (congrArg _ (acceptParameter_idctWord w hcount hroom)), hluma, hchroma, ?_⟩
  intro k hk c hlow hhigh
  have hc : idctHalf s.params.idctHalfOrder w (k % 2) = c := by
    rw [idctHalf_eq (Nat.mod_lt k (by decide))]
    cases ho : s.params.idctHalfOrder with
    | lowFirst => exact (hlow ho).symm
    | highFirst => exact (hhigh ho).symm
  rw [idctWord_idct, hc]

/-! ## A table load -/

/-- A data-port write to an idle block is its command's dispatch (R86, R120). -/
theorem step_commandWord {s : State} {w : Word} {rest : List HostOp} (hlive : Live s) (hidle : Idle s)
    (hpending : s.pending = portWrite 0 w :: rest) :
    step s = .next (commandDispatch w (withPending rest s)) := by
  rw [step_cons hlive hpending (decode_portWrite_data _ w), writeMode_idle hidle, decodeDataWrite,
    ← effect_decodeCommand]
  exact exec_live hlive

/-- A data-port write to a busy block is a parameter word of its command (R86, R125). -/
theorem step_parameterWord {s : State} {w : Word} {rest : List HostOp} (hlive : Live s)
    (hbusy : commandBusy s = true) (hpending : s.pending = portWrite 0 w :: rest) :
    step s = .next (parameterWrite w (withPending rest s)) := by
  rw [step_cons hlive hpending (decode_portWrite_data _ w), writeMode_busy hbusy, decodeDataWrite,
    ← effect_decodeParam]
  exact exec_live hlive

/-- An expected word of a table load writes the count, the counter and the tables only. -/
theorem parameterWrite_tableLoad {s : State} (w : Word) (hload : TableLoad s) (hcount : s.parameterCount ≠ 0) :
    parameterWrite w s =
      { s with parameterCount := s.parameterCount - 1, cnt := s.cnt + 1,
               tables := (routeWord s.command w s).tables } := by
  rcases hload with hc | hc
  · have hroute : routeWord s.command w = quantWord w := by rw [hc]; rfl
    rw [parameterWrite, hroute]
    exact acceptParameter_quantWord w hcount (by simp [hc])
  · have hroute : routeWord s.command w = idctWord w := by rw [hc]; rfl
    rw [parameterWrite, hroute]
    exact acceptParameter_idctWord w hcount (by simp [hc])

/-- The pending operations have no part in a table load. -/
theorem parameterWrite_withPending {s : State} (w : Word) (r : List HostOp) (hload : TableLoad s)
    (hcount : s.parameterCount ≠ 0) :
    parameterWrite w (withPending r s) = withPending r (parameterWrite w s) := by
  rw [parameterWrite_tableLoad w hload hcount, parameterWrite_tableLoad (s := withPending r s) w hload hcount]
  rcases hload with hc | hc <;> simp only [withPending, hc] <;> rfl

/-- The parameter words `ws` in a row. -/
def parameterWrites : List Word → State → State
  | [], s => s
  | w :: ws, s => parameterWrites ws (parameterWrite w s)

/-- What is left of a table load after its first word `w`. -/
theorem tableLoad_tail {s : State} {w : Word} {ws : List Word} (hload : TableLoad s)
    (hcount : s.parameterCount.toNat = (w :: ws).length) :
    s.parameterCount ≠ 0 ∧ TableLoad (parameterWrite w s) ∧
    (parameterWrite w s).parameterCount.toNat = ws.length := by
  have hne : s.parameterCount ≠ 0 := fun h => by simp [h] at hcount
  rw [parameterWrite_tableLoad w hload hne]
  refine ⟨hne, hload, (count_sub_one_toNat hne).trans ?_⟩
  rw [hcount]
  rfl

/-- The words of a whole table load end the count and write the counter and the tables only. -/
theorem parameterWrites_frame {ws : List Word} {s : State} (hload : TableLoad s)
    (hcount : s.parameterCount.toNat = ws.length) :
    parameterWrites ws s =
      { s with parameterCount := 0, cnt := s.cnt + ws.length, tables := (parameterWrites ws s).tables } := by
  induction ws generalizing s with
  | nil =>
    have hzero : s.parameterCount = 0 := BitVec.eq_of_toNat_eq hcount
    simp [parameterWrites, ← hzero]
  | cons w ws ih =>
    obtain ⟨hne, hload', hcount'⟩ := tableLoad_tail hload hcount
    rw [parameterWrites, ih hload' hcount', parameterWrite_tableLoad w hload hne]
    simp [Nat.add_assoc, Nat.add_comm]

/-- A table load runs in one step for each of its words. -/
theorem runSteps_tableLoad {ws : List Word} {s : State} {rest : List HostOp} (hlive : Live s) (hload : TableLoad s)
    (hcount : s.parameterCount.toNat = ws.length) (hpending : s.pending = ws.map (portWrite 0) ++ rest) :
    runSteps ws.length s = .next (parameterWrites ws (withPending rest s)) := by
  induction ws generalizing s with
  | nil =>
    obtain rfl : s.pending = rest := hpending
    rfl
  | cons w ws ih =>
    obtain ⟨hne, hload', hcount'⟩ := tableLoad_tail hload hcount
    have hstep := step_parameterWord hlive (commandBusy_iff.2 (.inl hne)) hpending
    rw [parameterWrite_withPending w _ hload hne] at hstep
    rw [parameterWrites, parameterWrite_withPending w rest hload hne, List.length_cons, runSteps, hstep]
    refine ih (s := withPending _ (parameterWrite w s)) ?_ hload' hcount' rfl
    rw [parameterWrite_tableLoad w hload hne]
    exact hlive

/-- A table entry that word `i` of a load holds, as `value`, has that value after a load that reaches word `i`, and
is kept by any other. -/
theorem parameterWrites_entry {α : Type} {entry : Tables → α} {value : Params → Word → α} {i : Nat} {c : Command}
    (hentry : ∀ w u, entry (routeWord c w u).tables = if i = u.cnt then value u.params w else entry u.tables)
    {ws : List Word} {s : State} (hc : s.command = c) (hload : TableLoad s)
    (hcount : s.parameterCount.toNat = ws.length) :
    entry (parameterWrites ws s).tables =
      if s.cnt ≤ i ∧ i < s.cnt + ws.length then value s.params (ws.getD (i - s.cnt) 0) else entry s.tables := by
  induction ws generalizing s with
  | nil => rw [if_neg (by simp), parameterWrites]
  | cons w ws ih =>
    obtain ⟨hne, hload', hcount'⟩ := tableLoad_tail hload hcount
    have hw := parameterWrite_tableLoad w hload hne
    rw [parameterWrites, ih (by rw [hw]; exact hc) hload' hcount', hw, hc]
    simp only [hentry, List.length_cons]
    rcases Nat.lt_trichotomy i s.cnt with hi | rfl | hi
    · rw [if_neg (by omega), if_neg (by omega), if_neg (by omega)]
    · simp
    · have hget : (w :: ws).getD (i - s.cnt) 0 = ws.getD (i - (s.cnt + 1)) 0 := by
        rw [show i - s.cnt = (i - (s.cnt + 1)) + 1 by omega]
        rfl
      rw [hget, if_neg (Nat.ne_of_gt hi)]
      congr 1
      simp only [eq_iff_iff]
      omega

/-- What no word of a load writes is kept by the whole load. -/
theorem parameterWrites_keeps {α : Type} {entry : Tables → α} {c : Command}
    (hkeep : ∀ w u, entry (routeWord c w u).tables = entry u.tables) {ws : List Word} {s : State}
    (hc : s.command = c) (hload : TableLoad s) (hcount : s.parameterCount.toNat = ws.length) :
    entry (parameterWrites ws s).tables = entry s.tables := by
  induction ws generalizing s with
  | nil => rfl
  | cons w ws ih =>
    obtain ⟨hne, hload', hcount'⟩ := tableLoad_tail hload hcount
    have hw := parameterWrite_tableLoad w hload hne
    rw [parameterWrites, ih (by rw [hw]; exact hc) hload' hcount', hw, hc, hkeep]

/-- A load from word 0 on sets the entries its words hold and keeps the others. -/
theorem tableLoad_entry {α : Type} {entry : Tables → α} (value : Params → Word → α) (i : Nat) {c : Command}
    (hentry : ∀ w u, entry (routeWord c w u).tables = if i = u.cnt then value u.params w else entry u.tables)
    {ws : List Word} {s : State} (hc : s.command = c) (hload : TableLoad s)
    (hcount : s.parameterCount.toNat = ws.length) (hcnt : s.cnt = 0) :
    entry (parameterWrites ws s).tables =
      if i < ws.length then value s.params (ws.getD i 0) else entry s.tables := by
  simpa [hcnt] using parameterWrites_entry hentry hc hload hcount

/-- A dispatch from an idle block leaves it empty but for the count (R120). -/
theorem commandDispatch_of_idle {w : Word} {s : State} (hidle : Idle s) :
    (commandDispatch w s).inQueue = [] ∧ (commandDispatch w s).decodingActive = false ∧
    (commandDispatch w s).outBuf = [] := by
  obtain ⟨-, -, hactive, hbuf⟩ := idle_iff.1 hidle
  rcases commandDispatch_cases w s with ⟨-, h⟩ | ⟨-, h⟩ | ⟨-, h⟩ | ⟨-, -, -, h⟩ <;> simp [h, hactive, hbuf]

/-- A table command `w` that an idle block dispatches to `u`, and its whole load, run in one step for each word to a
live idle block. -/
theorem runSteps_tableCommand {s u : State} {w : Word} {ws : List Word} {rest : List HostOp} (hlive : Live s)
    (hidle : Idle s) (hpending : s.pending = portWrite 0 w :: (ws.map (portWrite 0) ++ rest))
    (hu : commandDispatch w (withPending (ws.map (portWrite 0) ++ rest) s) = u) (hload : TableLoad u)
    (hcount : u.parameterCount.toNat = ws.length) :
    ∃ t, runSteps (1 + ws.length) s = .next t ∧ t.pending = rest ∧ Live t ∧ Idle t ∧ t.command = u.command ∧
      t.tables = (parameterWrites ws (withPending rest u)).tables := by
  have hfirst : runSteps 1 s = .next u := by rw [runSteps, step_commandWord hlive hidle hpending, hu]; rfl
  have hliveu : Live u := by
    rw [← hu]
    exact (commandDispatch_frame w _).2.trans hlive
  have hpendingu : u.pending = ws.map (portWrite 0) ++ rest := by
    rw [← hu]
    exact (commandDispatch_keeps_host w _).2
  obtain ⟨hqueue, hactive, hbuf⟩ : u.inQueue = [] ∧ u.decodingActive = false ∧ u.outBuf = [] := by
    rw [← hu]
    exact commandDispatch_of_idle hidle
  refine ⟨parameterWrites ws (withPending rest u),
    (runSteps_add _ hfirst).trans (runSteps_tableLoad hliveu hload hcount hpendingu), ?_⟩
  rw [parameterWrites_frame (s := withPending rest u) hload hcount]
  exact ⟨rfl, hliveu, idle_iff.2 ⟨rfl, hqueue, hactive, hbuf⟩, rfl, rfl⟩

theorem commandDispatch_setQuant {w : Word} (h : opcode w = 2) (s : State) :
    commandDispatch w s = dispatchSetQuant (bitOf w 0) (beginDispatch s) := by
  simp [commandDispatch, h]

theorem commandDispatch_setIdct {w : Word} (h : opcode w = 3) (s : State) :
    commandDispatch w s = dispatchSetIdct (beginDispatch s) := by
  simp [commandDispatch, h]

/-- Settles O51: luma entry `k` is in word `k / 4` of the load, chroma entry `k` in word `k / 4 + 16`, which only a
load with `color` reaches. -/
theorem quantLoadFillsTables : Obligations.QuantLoadFillsTables := by
  intro s w ws rest hlive hidle hopcode hlength hpending
  have hload : TableLoad (dispatchSetQuant (bitOf w 0) (beginDispatch (withPending rest s))) := .inl rfl
  have hcount : (dispatchSetQuant (bitOf w 0) (beginDispatch (withPending rest s))).parameterCount.toNat =
      ws.length := by
    rw [hlength]
    show (if w.getLsbD 0 then (32 : BitVec 16) else 16).toNat = _
    split <;> rfl
  obtain ⟨t, hrun, hrest, hlivet, hidlet, hcommand, htables⟩ :=
    runSteps_tableCommand hlive hidle hpending (commandDispatch_setQuant hopcode _) hload hcount
  refine ⟨t, hrun, hrest, hlivet, hidlet, hcommand, ?_, fun k hk => ⟨?_, ?_⟩⟩ <;> rw [htables]
  · exact parameterWrites_keeps (entry := Tables.idct) (c := .setQuantTable) quantWord_idct rfl hload hcount
  · refine (tableLoad_entry (entry := (·.lumaQ[k])) (c := .setQuantTable)
      (fun p v => quantByte p.quantByteOrder v (k % 4)) (k / 4) (quantWord_lumaQ · · k hk) rfl hload hcount rfl).trans
      (if_pos ?_)
    split at hlength <;> omega
  · refine (tableLoad_entry (entry := (·.chromaQ[k])) (c := .setQuantTable)
      (fun p v => quantByte p.quantByteOrder v (k % 4)) (k / 4 + 16) (quantWord_chromaQ · · k hk) rfl hload hcount
      rfl).trans ?_
    have hcolor : k / 4 + 16 < ws.length ↔ w.getLsbD 0 = true := by
      rw [hlength]
      cases w.getLsbD 0 with
      | false => simp
      | true => simp; omega
    rw [Nat.add_comm 16]
    exact if_congr hcolor rfl rfl

/-- Settles O52: slot `k` is in word `k / 2` of the load. -/
theorem idctLoadFillsTable : Obligations.IdctLoadFillsTable := by
  intro s w ws rest hlive hidle hopcode hlength hpending
  have hload : TableLoad (dispatchSetIdct (beginDispatch (withPending rest s))) := .inr rfl
  have hcount : (dispatchSetIdct (beginDispatch (withPending rest s))).parameterCount.toNat = ws.length :=
    hlength.symm
  obtain ⟨t, hrun, hrest, hlivet, hidlet, hcommand, htables⟩ :=
    runSteps_tableCommand hlive hidle hpending (commandDispatch_setIdct hopcode _) hload hcount
  rw [hlength] at hrun
  refine ⟨t, hrun, hrest, hlivet, hidlet, hcommand, ?_, ?_, fun k hk => ?_⟩ <;> rw [htables]
  · exact parameterWrites_keeps (entry := Tables.lumaQ) (c := .setIdct) (idctWord_quant · · |>.1) rfl hload hcount
  · exact parameterWrites_keeps (entry := Tables.chromaQ) (c := .setIdct) (idctWord_quant · · |>.2) rfl hload hcount
  · exact (tableLoad_entry (entry := (·.idct[k])) (c := .setIdct) (fun p v => idctHalf p.idctHalfOrder v (k % 2))
      (k / 2) (idctWord_idct · · k hk) rfl hload hcount rfl).trans (if_pos (by omega))

end Sys2Proof.Machine

/-! SUPPORT. Reads over the data port (20_memory.md R63, R67): three 24-bit reads carry the bytes of four pixels in
address order (43_output_packer.md R176), and a status poll changes no run (70_reset_and_hazards.md R242). -/
namespace Sys2Proof.Machine

/-! ## The data-port read, by where the cursor goes -/

theorem readData_empty {s : State} (h : s.outBuf = []) : readData s = returnRead 0 s := if_pos h

/-- A read that leaves pixels moves the cursor and the phase (R171). -/
theorem readData_within {s : State} (h : s.ptr + advance s.colorDepth s.phase < s.outBuf.length) :
    readData s =
      { s with ptr := s.ptr + advance s.colorDepth s.phase, phase := nextPhase s.colorDepth s.phase,
               draws := s.draws + 1, lastRead := some (packWord s).1 } := by
  have hbuf : s.outBuf ≠ [] := by
    rintro hnil
    simp [hnil] at h
  rw [readData, if_neg hbuf]
  rcases packRead_cases s with ⟨hend, -⟩ | ⟨-, he⟩
  · omega
  · exact he

/-- A read that takes the last pixels clears the buffer, the cursor and the phase (R177). -/
theorem readData_at_end {s : State} (hbuf : s.outBuf ≠ [])
    (h : s.outBuf.length ≤ s.ptr + advance s.colorDepth s.phase) :
    readData s =
      { s with outBuf := [], ptr := 0, phase := 0, draws := s.draws + 1, lastRead := some (packWord s).1 } := by
  rw [readData, if_neg hbuf]
  rcases packRead_cases s with ⟨-, he⟩ | ⟨hlt, -⟩
  · exact he
  · omega

/-! ## The words of a 24-bit read -/

/-- Byte `j` of a pixel (R8, R170). -/
def pixelByte (p : Pixel) (j : Nat) : Byte := p.extractLsb' (8 * j) 8

/-- The packed words of the three phases are made of pixel bytes in order (R176). -/
theorem pack24_words (p q : Pixel) :
    p.setWidth 32 ||| (q.extractLsb' 0 8).setWidth 32 <<< 24 =
      wordOfBytes (pixelByte p 0) (pixelByte p 1) (pixelByte p 2) (pixelByte q 0) ∧
    (p.extractLsb' 8 16).setWidth 32 ||| (q.extractLsb' 0 16).setWidth 32 <<< 16 =
      wordOfBytes (pixelByte p 1) (pixelByte p 2) (pixelByte q 0) (pixelByte q 1) ∧
    (p.extractLsb' 16 8).setWidth 32 ||| q.setWidth 32 <<< 8 =
      wordOfBytes (pixelByte p 2) (pixelByte q 0) (pixelByte q 1) (pixelByte q 2) := by
  refine ⟨?_, ?_, ?_⟩ <;>
  · refine BitVec.eq_of_getLsbD_eq fun i hi => ?_
    simp only [wordOfBytes, pixelByte, BitVec.getLsbD_or, BitVec.getLsbD_shiftLeft, BitVec.getLsbD_setWidth,
      BitVec.getLsbD_append, BitVec.getLsbD_extractLsb']
    interval_cases i <;> simp

/-- The word of a 24-bit read, from the pixels at the cursor (R176). -/
theorem packWord_bits24 {s : State} (hdepth : s.colorDepth = .bits24) :
    (s.phase = 0 → (packWord s).1 = wordOfBytes (pixelByte (px s s.ptr) 0) (pixelByte (px s s.ptr) 1)
      (pixelByte (px s s.ptr) 2) (pixelByte (px s (s.ptr + 1)) 0)) ∧
    (s.phase = 1 → (packWord s).1 = wordOfBytes (pixelByte (px s (s.ptr + 1)) 1) (pixelByte (px s (s.ptr + 1)) 2)
      (pixelByte (px s (s.ptr + 2)) 0) (pixelByte (px s (s.ptr + 2)) 1)) ∧
    (s.phase = 2 → (packWord s).1 = wordOfBytes (pixelByte (px s (s.ptr + 2)) 2) (pixelByte (px s (s.ptr + 3)) 0)
      (pixelByte (px s (s.ptr + 3)) 1) (pixelByte (px s (s.ptr + 3)) 2)) := by
  refine ⟨fun h => ?_, fun h => ?_, fun h => ?_⟩ <;> simp only [packWord, pack24, hdepth, h]
  · exact (pack24_words _ _).1
  · exact (pack24_words _ _).2.1
  · exact (pack24_words _ _).2.2

/-- The pixels at the cursor of a buffer written out around it (R170). -/
theorem px_of_append {s : State} {pre mid post : List Pixel} {i : Nat} (hbuf : s.outBuf = pre ++ mid ++ post)
    (hptr : s.ptr = pre.length) (hi : i < mid.length) : px s (s.ptr + i) = mid[i] := by
  simp [px, hbuf, hptr, List.getElem?_append, hi]

/-- A 24-bit read before phase 2 moves the phase on and keeps the pixels and the cursor (R176). -/
theorem exec_rdData_bits24_kept {s : State} (hlive : Live s) (hdepth : s.colorDepth = .bits24) (hphase : s.phase ≠ 2)
    (hlt : s.ptr < s.outBuf.length) :
    ∃ t, exec .rdData s = .next t ∧ t.lastRead = some (packWord s).1 ∧ Live t ∧ t.colorDepth = .bits24 ∧
      t.phase = nextPhase .bits24 s.phase ∧ t.outBuf = s.outBuf ∧ t.ptr = s.ptr := by
  have hadvance : advance s.colorDepth s.phase = 0 := by simp [hdepth, advance, hphase]
  refine ⟨readData s, exec_live hlive, ?_⟩
  rw [readData_within (by rwa [hadvance]), hadvance]
  exact ⟨rfl, hlive, hdepth, by rw [hdepth], rfl, rfl⟩

/-- A 24-bit read at phase 2 moves the cursor past four pixels, or clears the buffer that ends there (R176, R177). -/
theorem exec_rdData_bits24_moved {s : State} (hlive : Live s) (hdepth : s.colorDepth = .bits24) (hphase : s.phase = 2)
    (hle : s.ptr + 4 ≤ s.outBuf.length) :
    ∃ t, exec .rdData s = .next t ∧ t.lastRead = some (packWord s).1 ∧ t.phase = 0 ∧
      (s.outBuf.length = s.ptr + 4 → t.outBuf = [] ∧ t.ptr = 0) ∧
      (s.outBuf.length ≠ s.ptr + 4 → t.outBuf = s.outBuf ∧ t.ptr = s.ptr + 4) := by
  have hadvance : advance s.colorDepth s.phase = 4 := by simp [hdepth, advance, hphase]
  refine ⟨readData s, exec_live hlive, ?_⟩
  by_cases hend : s.outBuf.length = s.ptr + 4
  · have hbuf : s.outBuf ≠ [] := fun hnil => by simp [hnil] at hend
    rw [readData_at_end hbuf (by omega)]
    exact ⟨rfl, rfl, fun _ => ⟨rfl, rfl⟩, fun hne => absurd hend hne⟩
  · rw [readData_within (by omega), hadvance]
    exact ⟨rfl, by rw [hdepth, hphase]; rfl, fun h => absurd h hend, fun _ => ⟨rfl, rfl⟩⟩

/-- Settles O29: the first two reads keep the cursor, the third moves it past the four pixels, and each word is made
of the pixels' bytes. -/
theorem twentyFourBitRoundTrip : Obligations.TwentyFourBitRoundTrip := by
  intro s pre post p0 p1 p2 p3 hlive hdepth hphase hbuf hptr
  have hlength : s.outBuf.length = s.ptr + 4 + post.length := by simp [hbuf, hptr]; omega
  obtain ⟨t1, hexec1, hread1, hlive1, hdepth1, hphase1, hbuf1, hptr1⟩ :=
    exec_rdData_bits24_kept hlive hdepth (by simp [hphase]) (by omega)
  replace hphase1 : t1.phase = 1 := by rw [hphase1, hphase]; rfl
  obtain ⟨t2, hexec2, hread2, hlive2, hdepth2, hphase2, hbuf2, hptr2⟩ :=
    exec_rdData_bits24_kept hlive1 hdepth1 (by simp [hphase1]) (by rw [hbuf1]; omega)
  replace hphase2 : t2.phase = 2 := by rw [hphase2, hphase1]; rfl
  rw [hbuf1] at hbuf2
  rw [hptr1] at hptr2
  obtain ⟨t3, hexec3, hread3, hphase3, hend, hmore⟩ :=
    exec_rdData_bits24_moved hlive2 hdepth2 hphase2 (by rw [hbuf2]; omega)
  rw [hbuf2, hptr2, hlength] at hend hmore
  refine ⟨t1, t2, t3, _, _, _, hexec1, hexec2, hexec3, hread1, hread2, hread3, ?_, hphase3, ?_, ?_⟩
  · have hpx (u : State) (hu : u.outBuf = s.outBuf) (hu' : u.ptr = s.ptr) :
        px u u.ptr = p0 ∧ px u (u.ptr + 1) = p1 ∧ px u (u.ptr + 2) = p2 ∧ px u (u.ptr + 3) = p3 :=
      have h (i : Nat) (hi : i < 4) : px u (u.ptr + i) = [p0, p1, p2, p3][i] :=
        px_of_append (hu.trans hbuf) (hu'.trans hptr) hi
      ⟨h 0 (by decide), h 1 (by decide), h 2 (by decide), h 3 (by decide)⟩
    obtain ⟨hs0, hs1, -⟩ := hpx s rfl rfl
    obtain ⟨-, ht1, ht2, -⟩ := hpx t1 hbuf1 hptr1
    obtain ⟨-, -, hu2, hu3⟩ := hpx t2 hbuf2 hptr2
    rw [(packWord_bits24 hdepth).1 hphase, (packWord_bits24 hdepth1).2.1 hphase1, (packWord_bits24 hdepth2).2.2 hphase2,
      hs0, hs1, ht1, ht2, hu2, hu3]
    simp only [bytesOfWord_wordOfBytes]
    rfl
  · rintro rfl
    exact hend rfl
  · intro hpost
    exact hmore (by simpa using hpost)

/-! ## A status poll -/

/-- The state without the value the latest read returned. -/
def forgetRead (s : State) : State := { s with lastRead := none }

/-! Each operation, started without that value, leaves the same state but for that value. -/

theorem acceptParameter_forgetRead {route : State → State}
    (h : ∀ s, forgetRead (route (forgetRead s)) = forgetRead (route s)) (s : State) :
    forgetRead (acceptParameter route (forgetRead s)) = forgetRead (acceptParameter route s) := by
  rcases acceptParameter_cases route s with ⟨h0, he⟩ | ⟨h0, hc, hf, he⟩ | ⟨h0, hroom, he⟩
  · rw [he, acceptParameter_excess (s := forgetRead s) h0]; rfl
  · rw [he, acceptParameter_overflow (s := forgetRead s) h0 hc hf]; rfl
  · rw [he, acceptParameter_ok (s := forgetRead s) h0 hroom]; exact h { s with parameterCount := _ }

theorem routeWord_forgetRead (c : Command) (w : Word) (s : State) :
    forgetRead (routeWord c w (forgetRead s)) = forgetRead (routeWord c w s) := by
  cases c with
  | decodeMacroblock => simp only [routeWord, dataWord, apply_ite forgetRead]; rfl
  | setQuantTable => rfl
  | setIdct => rfl
  | none => rfl

theorem commandDispatch_forgetRead (w : Word) (s : State) :
    forgetRead (commandDispatch w (forgetRead s)) = forgetRead (commandDispatch w s) := by
  simp only [commandDispatch, apply_ite forgetRead]; rfl

theorem readData_forgetRead (s : State) : forgetRead (readData (forgetRead s)) = forgetRead (readData s) := by
  by_cases hbuf : s.outBuf = []
  · rw [readData_empty hbuf, readData_empty (s := forgetRead s) hbuf]; rfl
  · rcases Nat.lt_or_ge (s.ptr + advance s.colorDepth s.phase) s.outBuf.length with h | h
    · rw [readData_within h, readData_within (s := forgetRead s) h]; rfl
    · rw [readData_at_end hbuf h, readData_at_end (s := forgetRead s) hbuf h]; rfl

theorem decodeLoop_forgetRead (n : Nat) (s : State) : decodeLoop n (forgetRead s) = forgetRead (decodeLoop n s) := by
  induction n generalizing s with
  | zero => rfl
  | succ n ih =>
    cases hq : s.inQueue with
    | nil => rw [decodeLoop_nil _ hq, decodeLoop_nil (s := forgetRead s) _ hq]
    | cons w q =>
      by_cases ho : s.outBuf = []
      · rw [decodeLoop_cons n hq ho, decodeLoop_cons (s := forgetRead s) n hq ho]
        exact ih (feedWord w q s)
      · rw [decodeLoop_full _ ho, decodeLoop_full (s := forgetRead s) _ ho]

theorem decodeStep_forgetRead (k : TickBudget) (s : State) :
    forgetRead (decodeStep k (forgetRead s)) = forgetRead (decodeStep k s) := by
  by_cases hnoop : s.decodingActive = false ∨ s.outBuf ≠ []
  · rw [decodeStep_noop hnoop, decodeStep_noop (s := forgetRead s) hnoop]; rfl
  · obtain ⟨hactive, hbuf⟩ : s.decodingActive = true ∧ s.outBuf = [] := by simpa using hnoop
    rw [decodeStep_active hactive hbuf, decodeStep_active (s := forgetRead s) hactive hbuf, settleActive_frame,
      settleActive_frame, decodeLoop_forgetRead]
    rfl

theorem effect_forgetRead (i : Instr) (s : State) :
    forgetRead (effect i (forgetRead s)) = forgetRead (effect i s) := by
  cases i with
  | decodeMb d sgn b15 ignored count => rfl
  | setQuant ignored color => rfl
  | setIdct ignored => rfl
  | nopCmd0 ignored => rfl
  | nopCmd4 ignored => rfl
  | nopCmd5 ignored => rfl
  | nopCmd6 ignored => rfl
  | nopCmd7 ignored => rfl
  | paramData w => exact acceptParameter_forgetRead (routeWord_forgetRead .decodeMacroblock w) s
  | paramQuant w => exact acceptParameter_forgetRead (routeWord_forgetRead .setQuantTable w) s
  | paramIdct w => exact acceptParameter_forgetRead (routeWord_forgetRead .setIdct w) s
  | paramNone w => exact acceptParameter_forgetRead (routeWord_forgetRead .none w) s
  | wrData w =>
    cases hbusy : commandBusy s with
    | true =>
      simp only [effect, hbusy, show commandBusy (forgetRead s) = true from hbusy, if_true]
      exact acceptParameter_forgetRead (routeWord_forgetRead s.command w) s
    | false =>
      simp only [effect, hbusy, show commandBusy (forgetRead s) = false from hbusy]
      exact commandDispatch_forgetRead w s
  | rdData => exact readData_forgetRead s
  | wrCtrl reset enIn enOut ignored => cases reset <;> rfl
  | rdStatus => rfl
  | tick k => exact decodeStep_forgetRead k s

/-- States that differ in the latest read value only stay so under an instruction. -/
theorem effect_congr_forgetRead (i : Instr) {s t : State} (h : forgetRead s = forgetRead t) :
    forgetRead (effect i s) = forgetRead (effect i t) := by
  rw [← effect_forgetRead i s, h, effect_forgetRead]

/-- Outcomes that differ in the latest read value only are equal, or next states that do. -/
theorem sameButRead_cases {x y : Host.Outcome State Fault Refusal} (h : SameButRead x y) :
    x = y ∨ ∃ u v, x = .next u ∧ y = .next v ∧ forgetRead u = forgetRead v := by
  cases x with
  | next u =>
    cases y with
    | next v => exact .inr ⟨u, v, rfl, rfl, h⟩
    | fault g => exact False.elim h
    | refused q => exact False.elim h
  | fault f =>
    cases y with
    | next v => exact False.elim h
    | fault g => exact .inl (congrArg _ h)
    | refused q => exact False.elim h
  | refused r =>
    cases y with
    | next v => exact False.elim h
    | fault g => exact False.elim h
    | refused q => exact .inl (congrArg _ h)

theorem sameButRead_refl (x : Host.Outcome State Fault Refusal) : SameButRead x x := by
  cases x <;> rfl

theorem applyOp_sameButRead (op : HostOp) {s t : State} (hs : Live s) (ht : Live t)
    (h : forgetRead s = forgetRead t) : SameButRead (applyOp op s) (applyOp op t) := by
  have hmode : writeMode s = writeMode t := (congrArg writeMode h :)
  rw [applyOp, applyOp, hmode]
  cases decode (writeMode t) op with
  | ok i =>
    simp only [exec_live hs, exec_live ht]
    exact effect_congr_forgetRead i h
  | error r =>
    cases r with
    | badAccess =>
      simp only [perform_live hs, perform_live ht]
      exact (congrArg (raise .badAccess) h :)
    | zeroTick => rfl

/-- A step does not look at the latest read value (R67). -/
theorem step_sameButRead {s t : State} (h : forgetRead s = forgetRead t) : SameButRead (step s) (step t) := by
  have hfault : s.fault = t.fault := (congrArg State.fault h :)
  have hpending : s.pending = t.pending := (congrArg State.pending h :)
  rw [step, step, hfault]
  cases ht : t.fault with
  | some m => rfl
  | none =>
    have hs : Live s := hfault.trans ht
    show SameButRead (applyPending s) (applyPending t)
    rw [applyPending, applyPending, hpending]
    cases t.pending with
    | nil =>
      simp only [perform_live hs, perform_live ht]
      exact h
    | cons op rest =>
      exact applyOp_sameButRead op (s := withPending rest s) (t := withPending rest t) hs ht
        (congrArg (withPending rest) h :)

/-- A run does not look at the latest read value. -/
theorem runSteps_sameButRead (n : Nat) {s t : State} (h : forgetRead s = forgetRead t) :
    SameButRead (runSteps n s) (runSteps n t) := by
  induction n generalizing s t with
  | zero => exact h
  | succ n ih =>
    rw [runSteps, runSteps]
    rcases sameButRead_cases (step_sameButRead h) with he | ⟨u, v, hu, hv, huv⟩
    · rw [he]
      exact sameButRead_refl _
    · rw [hu, hv]
      exact ih huv

/-- Settles O49: a poll is one step more, which changes the latest read value only. -/
theorem pollChangesNoRun : Obligations.PollChangesNoRun := by
  intro s n hlive
  have hpoll : step { s with pending := .busRead 4 4 :: s.pending } = .next (returnRead (statusWord s) s) :=
    (step_cons (s := { s with pending := .busRead 4 4 :: s.pending }) hlive rfl rfl).trans (exec_live hlive)
  rw [runSteps, hpoll]
  exact runSteps_sameButRead n rfl

end Sys2Proof.Machine

/-! SUPPORT. Classification of a data-port write (30_encoding.md R81 to R87): by the state into a command or a
parameter word, a command word by its opcode, and the stream that it opens; and the pseudo-instructions (R93). -/
namespace Sys2Proof.Machine

/-! ## A write is classified by the state -/

theorem effect_wrData_idle {w : Word} {s : State} (hidle : Idle s) : effect (.wrData w) s = commandDispatch w s := by
  simp [effect, hidle]

theorem effect_wrData_busy {w : Word} {s : State} (hbusy : commandBusy s = true) :
    effect (.wrData w) s = parameterWrite w s := by
  simp [effect, hbusy]

/-- A data-port write to an idle block completes as its command's dispatch (R100, R120). -/
theorem exec_wrData_idle {w : Word} {s : State} (hlive : Live s) (hidle : Idle s) :
    exec (.wrData w) s = .next (commandDispatch w s) := by
  rw [exec_live hlive, effect_wrData_idle hidle]

/-- Settles O19: the write and the row it is classified as have the same effect. -/
theorem wrDataIsItsRow : Obligations.WrDataIsItsRow := by
  refine fun s w => ⟨fun hidle => ?_, fun hbusy => ?_⟩
  · rw [exec_eq_perform, exec_eq_perform, effect_wrData_idle hidle, effect_decodeCommand]
  · rw [exec_eq_perform, exec_eq_perform, effect_wrData_busy hbusy, effect_decodeParam]

/-- Settles O5: a port write is decoded in the mode of the state (R86). -/
theorem writeClassifiedByState : Obligations.WriteClassifiedByState := by
  intro s w rest hlive hpending
  have hstep : step s = exec (decodeDataWrite (writeMode s) w) (withPending rest s) :=
    step_cons hlive hpending (decode_portWrite_data _ w)
  refine ⟨fun hidle => ?_, fun hbusy => ?_⟩
  · rwa [writeMode_idle hidle] at hstep
  · rwa [writeMode_busy hbusy] at hstep

/-! ## The opcode selects the command -/

theorem commandDispatch_decodeMb {w : Word} (h : opcode w = 1) (s : State) :
    commandDispatch w s =
      dispatchDecodeMb (depthField w) (bitOf w 26) (bitOf w 25) (countField w) (beginDispatch s) := by
  simp [commandDispatch, h]

theorem commandDispatch_none {w : Word} (h1 : opcode w ≠ 1) (h2 : opcode w ≠ 2) (h3 : opcode w ≠ 3) (s : State) :
    commandDispatch w s = dispatchNone (beginDispatch s) := by
  rw [commandDispatch, if_neg h1, if_neg h2, if_neg h3]

theorem commandDispatch_cnt (w : Word) (s : State) : (commandDispatch w s).cnt = 0 := by
  rcases commandDispatch_cases w s with ⟨-, h⟩ | ⟨-, h⟩ | ⟨-, h⟩ | ⟨-, -, -, h⟩ <;> simp [h]

/-- Settles O13: each opcode clause is the dispatch of that opcode; an unknown opcode keeps the idle block's count. -/
theorem dispatchTotalAndExclusive : Obligations.DispatchTotalAndExclusive := by
  intro s w hlive hidle
  obtain ⟨hqueue, hactive, hbuf⟩ := commandDispatch_of_idle (w := w) hidle
  refine ⟨commandDispatch w s, exec_wrData_idle hlive hidle, hqueue, commandDispatch_cnt w s,
    (commandDispatch_frame w s).1, fun h1 => ?_, fun h2 => ?_, fun h3 => ?_, fun h1 h2 h3 => ?_⟩
  · rw [commandDispatch_decodeMb h1]
    exact ⟨rfl, rfl, Depth.code_ofCode _, rfl, rfl⟩
  · rw [commandDispatch_setQuant h2]
    exact ⟨rfl, rfl⟩
  · rw [commandDispatch_setIdct h3]
    exact ⟨rfl, rfl⟩
  · have hnone := commandDispatch_none h1 h2 h3 s
    have hcount : (commandDispatch w s).parameterCount = 0 := by rw [hnone]; exact (idle_iff.1 hidle).1
    exact ⟨by rw [hnone]; rfl, hcount, idle_iff.2 ⟨hcount, hqueue, hactive, hbuf⟩⟩

/-! ## The stream a command word opens -/

/-- The words after the command word, by the opcode (R87). -/
theorem streamLength_eq (w : Word) :
    streamLength w =
      1 + if opcode w = 1 then (countField w).toNat
        else if opcode w = 2 then if bitOf w 0 then 32 else 16
        else if opcode w = 3 then 32
        else 0 := by
  by_cases h1 : opcode w = 1
  · simp [streamLength, decodeCommand, h1]
  by_cases h2 : opcode w = 2
  · cases hcolor : bitOf w 0 <;> simp [streamLength, decodeCommand, h2, hcolor]
  by_cases h3 : opcode w = 3
  · simp [streamLength, decodeCommand, h3]
  · simp only [streamLength, decodeCommand, if_neg h1, if_neg h2, if_neg h3]
    split_ifs <;> rfl

/-- Settles O55: the count each dispatch leaves; under an unknown opcode it is the idle block's 0. -/
theorem streamLengthIsCount : Obligations.StreamLengthIsCount := by
  intro s w hlive hidle
  refine ⟨commandDispatch w s, exec_wrData_idle hlive hidle, ?_⟩
  rcases commandDispatch_cases w s with ⟨hop, h⟩ | ⟨hop, h⟩ | ⟨hop, h⟩ | ⟨h1, h2, h3, h⟩ <;> rw [streamLength_eq, h]
  · simp [hop]
  · cases bitOf w 0 <;> simp [hop]
  · simp [hop]
  · have hcount : s.parameterCount = 0 := (idle_iff.1 hidle).1
    rw [if_neg h1, if_neg h2, if_neg h3]
    simp [hcount]

end Sys2Proof.Machine

namespace Sys2Proof

/-! ## Pseudo-instructions -/

/-- The instruction a pseudo-instruction stands for, with its ignored bits 0 (R93). -/
def Pseudo.instr : Pseudo → Instr
  | .reset i o => .wrCtrl true i o 0
  | .ctrl i o => .wrCtrl false i o 0
  | .decode d sgn b15 n => .decodeMb d sgn b15 0 n
  | .quant c => .setQuant 0 c
  | .idct => .setIdct 0
  | .nopCmd => .nopCmd0 0

/-- The word R93 spells for DECODE has the layout of R82. -/
theorem decode_expansion_eq_decodeMbWord (d : Depth) (sgn b15 : Bool) (n : BitVec 16) :
    0x20000000 ||| d.code.setWidth 32 <<< 27 ||| zextBit sgn <<< 26 ||| zextBit b15 <<< 25 ||| n.setWidth 32 =
      decodeMbWord d sgn b15 0 n := by
  refine BitVec.eq_of_getLsbD_eq fun i hi => ?_
  simp only [decodeMbWord, zextBit, BitVec.getLsbD_or, BitVec.getLsbD_shiftLeft, BitVec.getLsbD_setWidth,
    BitVec.getLsbD_append, BitVec.getLsbD_ofBool]
  interval_cases i <;> simp

/-- A pseudo-instruction expands to the encoding of its instruction (R92, R93). -/
theorem Pseudo.expand_eq_encode (p : Pseudo) : p.expand = encode p.instr := by
  cases p with
  | reset i o => cases i <;> cases o <;> rfl
  | ctrl i o => cases i <;> cases o <;> rfl
  | decode d sgn b15 n => exact congrArg (portWrite 0) (decode_expansion_eq_decodeMbWord d sgn b15 n)
  | quant c => cases c <;> rfl
  | idct => rfl
  | nopCmd => rfl

/-- A pseudo-instruction's operation is read as its instruction. -/
theorem Pseudo.decode_expand (p : Pseudo) : Sys2Proof.decode p.instr.mode p.expand = .ok p.instr := by
  have hwf : p.instr.wellFormed = true := by cases p <;> rfl
  rw [p.expand_eq_encode]
  exact decodeOfEncode p.instr hwf

/-- Settles O56: each row of R93 is a pseudo-instruction with its instruction and mode. -/
theorem pseudoInstructions : Obligations.PseudoInstructions :=
  ⟨fun i o => (Pseudo.reset i o).decode_expand, fun i o => (Pseudo.ctrl i o).decode_expand,
    fun d sgn b15 n => (Pseudo.decode d sgn b15 n).decode_expand, fun c => (Pseudo.quant c).decode_expand,
    Pseudo.idct.decode_expand, Pseudo.nopCmd.decode_expand⟩

end Sys2Proof

/-! SUPPORT. The register interface (40_register_interface.md): what an accepted parameter word writes by command
(R100), a read of the empty buffer (R101), and inspection beside a status read (R103, R104). -/
namespace Sys2Proof.Machine

/-! ## An accepted parameter word, by the recorded command -/

/-- A word that neither fault stops is counted and routed (R125, R206). -/
theorem parameterWrite_accepted {s : State} (w : Word) (hcount : s.parameterCount ≠ 0)
    (hroom : ¬(s.command = .decodeMacroblock ∧ s.inQueue.length = s.params.inFifoDepth)) :
    parameterWrite w s = routeWord s.command w { s with parameterCount := s.parameterCount - 1 } :=
  acceptParameter_ok hcount hroom

/-- Under DecodeMacroblock an accepted word goes to the queue's end and may start decoding (R125, R126). -/
theorem parameterWrite_decodeMacroblock {s : State} (w : Word) (hc : s.command = .decodeMacroblock)
    (hcount : s.parameterCount ≠ 0) (hroom : s.inQueue.length ≠ s.params.inFifoDepth) :
    parameterWrite w s =
      { s with parameterCount := s.parameterCount - 1, inQueue := s.inQueue ++ [w],
               decodingActive := (parameterWrite w s).decodingActive } := by
  have hroute : routeWord s.command w = dataWord w := by rw [hc]; rfl
  rw [parameterWrite_accepted w hcount fun hfull => hroom hfull.2, hroute]
  exact dataWord_frame w _

/-- Under None an accepted word is only counted (R129). -/
theorem parameterWrite_none {s : State} (w : Word) (hc : s.command = .none) (hcount : s.parameterCount ≠ 0) :
    parameterWrite w s = { s with parameterCount := s.parameterCount - 1 } := by
  have hroute : routeWord s.command w = id := by rw [hc]; rfl
  rw [parameterWrite_accepted w hcount (by simp [hc]), hroute, id]

/-- Settles O20: `routeWord_frame` gives what every accepted word keeps, and the lemma of the recorded command gives
what the word writes. -/
theorem busyWriteAccepted : Obligations.BusyWriteAccepted := by
  intro s w hlive hbusy hcount hroom
  have hexec : exec (.wrData w) s = .next (parameterWrite w s) := by
    rw [exec_live hlive, effect_wrData_busy hbusy]
  obtain ⟨hcount', hcommand, hfault, -, -, -, hbuf, -, -⟩ :=
    routeWord_frame s.command w { s with parameterCount := s.parameterCount - 1 }
  rw [← parameterWrite_accepted w hcount hroom] at hcount' hcommand hfault hbuf
  refine ⟨parameterWrite w s, hexec, hfault.trans hlive, hcount', hcommand, hbuf, fun hc => ?_, fun hload => ?_,
    fun hc => parameterWrite_none w hc hcount⟩
  · rw [parameterWrite_decodeMacroblock w hc hcount fun hfull => hroom ⟨hc, hfull⟩]
    exact ⟨rfl, rfl, rfl⟩
  · rw [parameterWrite_tableLoad w hload hcount]
    exact ⟨rfl, rfl, rfl⟩

/-! ## Reads -/

/-- Settles O24, by the read of an empty buffer. -/
theorem underrunReturnsZero : Obligations.UnderrunReturnsZero :=
  fun _ hlive hempty => (exec_live hlive).trans (congrArg _ (readData_empty hempty))

/-- Inspection sees nothing of the value a read leaves for its master (R9, R104). -/
@[simp] theorem inspect_returnRead (v : Word) (s : State) : inspect (returnRead v s) = inspect s := rfl

/-- Settles O23: the status read leaves the word that inspection shows as its value, which inspection does not see. -/
theorem inspectionMatchesStatusRead : Obligations.InspectionMatchesStatusRead :=
  fun s hlive => ⟨returnRead (statusWord s) s, exec_live hlive, rfl, inspect_returnRead _ s, rfl, rfl, rfl⟩

end Sys2Proof.Machine

/-! SUPPORT. Commands (41_commands.md): what each command word and each parameter word writes (R120 to R129), the
sequencing states (R131), and that a draining block can always finish (R131, R239). -/
namespace Sys2Proof.Machine

/-! ## Command words -/

/-- The block code a DecodeMacroblock starts at, by the depth (R121). -/
theorem startBlock_eq (p : Params) (d : Depth) :
    startBlock p d = if d = .bits4 ∨ d = .bits8 then p.monoStartBlock else .cr := by
  cases d <;> rfl

/-- Settles O9: the dispatch of DECODE_MB, with its block code by `startBlock_eq`. -/
theorem decodeMbResult : Obligations.DecodeMbResult := by
  intro s d sgn b15 ig n hlive
  rw [exec_live hlive, ← startBlock_eq]
  rfl

/-- Settles O10: both dispatches, each after the common part of R120. -/
theorem tableCommandResults : Obligations.TableCommandResults :=
  fun _ hlive => ⟨fun _ _ => exec_live hlive, fun _ => exec_live hlive⟩

/-- Settles O11: the five rows have one dispatch. -/
theorem nopCommandResults : Obligations.NopCommandResults := by
  rintro s ig i hlive (rfl | rfl | rfl | rfl | rfl) <;> exact exec_live hlive

/-! ## Parameter words -/

/-- An accepted data word is counted and queued, and a full queue or an ended stream starts decoding (R125, R126). -/
theorem acceptParameter_dataWord {s : State} (w : Word) (hcount : s.parameterCount ≠ 0)
    (hroom : ¬(s.command = .decodeMacroblock ∧ s.inQueue.length = s.params.inFifoDepth)) :
    acceptParameter (dataWord w) s =
      { s with
        parameterCount := s.parameterCount - 1, inQueue := s.inQueue ++ [w],
        decodingActive :=
          s.decodingActive || decide (s.inQueue.length + 1 = s.params.inFifoDepth ∨ s.parameterCount = 1) } := by
  have hactive : (dataWord w { s with parameterCount := s.parameterCount - 1 }).decodingActive =
      (s.decodingActive || decide (s.inQueue.length + 1 = s.params.inFifoDepth ∨ s.parameterCount = 1)) := by
    rw [Bool.eq_iff_iff, dataWord_active, Bool.or_eq_true, decide_eq_true_eq, count_sub_one_eq_zero]
  rw [acceptParameter_ok hcount hroom, dataWord_frame, hactive]

/-- Settles O14, by the accepted data word. -/
theorem paramDataResult : Obligations.ParamDataResult :=
  fun _ w hlive hcount hroom => (exec_live hlive).trans (congrArg _ (acceptParameter_dataWord w hcount hroom))

/-- Settles O17: an accepted word under None has no effect after the common step. -/
theorem paramNoneResult : Obligations.ParamNoneResult :=
  fun _ _ hlive hcount hroom => (exec_live hlive).trans (congrArg _ (acceptParameter_ok hcount hroom))

/-- Every form of a parameter word goes through the common step of R125. -/
theorem effect_parameterWord {s : State} {w : Word} {i : Instr}
    (hi : i = .paramData w ∨ i = .paramQuant w ∨ i = .paramIdct w ∨ i = .paramNone w ∨
      (i = .wrData w ∧ commandBusy s = true)) :
    ∃ route, effect i s = acceptParameter route s := by
  rcases hi with rfl | rfl | rfl | rfl | ⟨rfl, hbusy⟩
  · exact ⟨dataWord w, rfl⟩
  · exact ⟨quantWord w, rfl⟩
  · exact ⟨idctWord w, rfl⟩
  · exact ⟨id, rfl⟩
  · exact ⟨routeWord s.command w, effect_wrData_busy hbusy⟩

/-- Settles O18: the two checks of the common step, in their order (R206). -/
theorem parameterWordFaults : Obligations.ParameterWordFaults := by
  intro s w i hlive hi
  obtain ⟨route, hroute⟩ := effect_parameterWord hi
  rw [exec_live hlive, hroute]
  refine ⟨fun hzero => ?_, fun hcount hcommand hfull => ?_⟩
  · rw [acceptParameter_excess hzero]
    rfl
  · rw [acceptParameter_overflow hcount hcommand hfull]
    rfl

/-! ## The sequencing states -/

theorem stage_eq_idle {s : State} : stage s = .idle ↔ Idle s := by
  unfold stage Idle
  split_ifs <;> simp [*]

theorem stage_eq_receiving {s : State} {c : Command} (h : stage s = .receiving c) :
    c = s.command ∧ commandBusy s = true := by
  unfold stage at h
  split_ifs at h with hidle hcount
  exact ⟨(Stage.receiving.inj h).symm, by simpa using hidle⟩

theorem stage_eq_draining {s : State} (h : stage s = .draining) : commandBusy s = true ∧ s.parameterCount = 0 := by
  unfold stage at h
  split_ifs at h with hidle hcount
  exact ⟨by simpa using hidle, BitVec.eq_of_toNat_eq (Nat.eq_zero_of_not_pos hcount)⟩

/-- Outside DecodeMacroblock there is nothing to decode or read, so a busy block expects words (R125). -/
theorem BlockInv.count_ne_zero {s : State} (h : BlockInv s) (hbusy : commandBusy s = true)
    (hcommand : s.command ≠ .decodeMacroblock) : s.parameterCount ≠ 0 := by
  obtain ⟨hqueue, hbuf⟩ := h.decode_only hcommand
  rcases commandBusy_iff.1 hbusy with hcount | hne | hactive | hne
  · exact hcount
  · exact absurd hqueue hne
  · exact absurd hqueue (h.active_queue hactive)
  · exact absurd hbuf hne

/-- Settles O45: a write is classified by the state (R86), and a parameter word of a draining block finds the count
at 0. -/
theorem sequencingStates : Obligations.SequencingStates := by
  intro s w rest hlive hpending
  obtain ⟨hcommandWord, hparameterWord⟩ := writeClassifiedByState s w rest hlive hpending
  refine ⟨fun hstage => hcommandWord (stage_eq_idle.1 hstage), fun c hstage => ?_, fun hstage => ?_,
    fun hstage hinv => ?_⟩
  · obtain ⟨rfl, hbusy⟩ := stage_eq_receiving hstage
    exact ⟨rfl, hparameterWord hbusy⟩
  · obtain ⟨hbusy, hzero⟩ := stage_eq_draining hstage
    exact (step_parameterWord hlive hbusy hpending).trans
      (congrArg _ (acceptParameter_excess (s := withPending rest s) hzero))
  · obtain ⟨hbusy, hzero⟩ := stage_eq_draining hstage
    exact by_contra fun hcommand => hinv.count_ne_zero hbusy hcommand hzero

/-- A data-port write is read as an instruction of the mode it is read in (R86). -/
theorem mode_decodeDataWrite (m : Mode) (w : Word) : (decodeDataWrite m w).mode = m := by
  cases m with
  | port => rfl
  | command =>
    simp only [decodeDataWrite, decodeCommand]
    split_ifs <;> rfl
  | param c => cases c <;> rfl

/-- Settles O46: only a busy block with no recorded command reads PARAM_NONE, and there is none. -/
theorem paramNoneUnreachable : Obligations.ParamNoneUnreachable := by
  intro s op w hinv hdecode
  rcases decode_ok_cases hdecode with ⟨w', -, hi⟩ | ⟨w', -, hi⟩ | ⟨-, hi⟩ | ⟨-, hi⟩ | ⟨k, -, -, hi⟩
  · have hmode : writeMode s = .param .none := by rw [← mode_decodeDataWrite (writeMode s) w', ← hi]; rfl
    cases hbusy : commandBusy s with
    | false => simp [writeMode_idle hbusy] at hmode
    | true =>
      rw [writeMode_busy hbusy] at hmode
      exact hinv.command_ne_none hbusy (Mode.param.inj hmode)
  · cases hi
  · cases hi
  · cases hi
  · cases hi

/-- Settles O47: a busy table load expects a word, so its counter is below 32 by `load_bound` and the word is
accepted; an idle block takes the word as a command. -/
theorem tableLoadNeverFaults : Obligations.TableLoadNeverFaults := by
  intro s w rest hinv hlive hload hpending
  have hcount (hbusy : commandBusy s = true) : s.parameterCount ≠ 0 :=
    hinv.count_ne_zero hbusy (by rcases hload with hc | hc <;> simp [hc])
  refine ⟨fun hbusy => ?_, ?_⟩
  · have hbound := hinv.load_bound hload
    have hpos : s.parameterCount.toNat ≠ 0 := fun h0 => hcount hbusy (BitVec.eq_of_toNat_eq h0)
    omega
  · cases hbusy : commandBusy s with
    | false => exact ⟨_, step_commandWord hlive hbusy hpending, (commandDispatch_frame w _).2.trans hlive⟩
    | true =>
      refine ⟨_, step_parameterWord hlive hbusy hpending, ?_⟩
      rw [parameterWrite_tableLoad (s := withPending rest s) w hload (hcount hbusy)]
      exact hlive

/-! ## A draining block can finish -/

/-- Some unbounded decode steps and data-port reads lead from `s` to an idle block. -/
inductive DrainsToIdle : State → Prop where
  | idle {s : State} (h : Idle s) : DrainsToIdle s
  | tick {s : State} (h : DrainsToIdle (decodeStep .unbounded s)) : DrainsToIdle s
  | read {s : State} (h : DrainsToIdle (readData s)) : DrainsToIdle s

/-! The pending operations have no part in a decode step or a read. -/

theorem packWord_withPending (r : List HostOp) (s : State) : (packWord (withPending r s)).1 = (packWord s).1 := by
  simp only [packWord, withPending_colorDepth]
  cases s.colorDepth with
  | bits4 => rfl
  | bits8 => rfl
  | bits15 => rfl
  | bits24 =>
    simp only [pack24, withPending_phase]
    split <;> rfl

theorem readData_withPending (r : List HostOp) (s : State) :
    readData (withPending r s) = withPending r (readData s) := by
  by_cases hbuf : s.outBuf = []
  · rw [readData_empty hbuf, readData_empty (s := withPending r s) hbuf]; rfl
  · rcases Nat.lt_or_ge (s.ptr + advance s.colorDepth s.phase) s.outBuf.length with h | h
    · rw [readData_within h, readData_within (s := withPending r s) h, packWord_withPending]; rfl
    · rw [readData_at_end hbuf h, readData_at_end (s := withPending r s) hbuf h, packWord_withPending]; rfl

theorem decodeLoop_withPending (r : List HostOp) (n : Nat) (s : State) :
    decodeLoop n (withPending r s) = withPending r (decodeLoop n s) := by
  induction n generalizing s with
  | zero => rfl
  | succ n ih =>
    cases hq : s.inQueue with
    | nil => rw [decodeLoop_nil _ hq, decodeLoop_nil (s := withPending r s) _ hq]
    | cons w q =>
      by_cases ho : s.outBuf = []
      · rw [decodeLoop_cons n hq ho, decodeLoop_cons (s := withPending r s) n hq ho]
        exact ih (feedWord w q s)
      · rw [decodeLoop_full _ ho, decodeLoop_full (s := withPending r s) _ ho]

theorem decodeStep_withPending (k : TickBudget) (r : List HostOp) (s : State) :
    decodeStep k (withPending r s) = withPending r (decodeStep k s) := by
  by_cases hnoop : s.decodingActive = false ∨ s.outBuf ≠ []
  · rw [decodeStep_noop hnoop, decodeStep_noop (s := withPending r s) hnoop]
  · obtain ⟨hactive, hbuf⟩ : s.decodingActive = true ∧ s.outBuf = [] := by simpa using hnoop
    have hrounds : tickRounds k (withPending r s) = tickRounds k s := by cases k <;> rfl
    rw [decodeStep_active hactive hbuf, decodeStep_active (s := withPending r s) hactive hbuf, hrounds,
      decodeLoop_withPending, settleActive_frame, settleActive_frame]
    rfl

/-- A decode step writes the queue, the engine, the buffer, the block code and the active flag only (R154). -/
theorem decodeStep_frame (k : TickBudget) (s : State) :
    decodeStep k s =
      { s with inQueue := (decodeStep k s).inQueue, engine := (decodeStep k s).engine,
               outBuf := (decodeStep k s).outBuf, currentBlock := (decodeStep k s).currentBlock,
               decodingActive := (decodeStep k s).decodingActive } := by
  unfold decodeStep
  split
  · rfl
  · rw [settleActive_frame, decodeLoop_frame]

/-- The first pending operation runs as its instruction, where that has no regard to the pending operations. -/
theorem runSteps_cons {s : State} {op : HostOp} {ops : List HostOp} {i : Instr} (hlive : Live s)
    (hdecode : decode (writeMode s) op = .ok i)
    (heffect : effect i (withPending ops s) = withPending ops (effect i s)) :
    runSteps (op :: ops).length (withPending (op :: ops) s) =
      runSteps ops.length (withPending ops (effect i s)) := by
  have hstep : step (withPending (op :: ops) s) = .next (effect i (withPending ops s)) :=
    (step_cons (s := withPending (op :: ops) s) hlive rfl hdecode).trans (exec_live hlive)
  rw [List.length_cons, runSteps, hstep, heffect]

/-- The decode steps and reads that drain a live block are a run of the machine. -/
theorem DrainsToIdle.exists_run {s : State} (h : DrainsToIdle s) (hlive : Live s) :
    ∃ ops : List HostOp, (∀ op ∈ ops, op = .tick .unbounded ∨ op = .busRead 0 4) ∧
      ∃ t, runSteps ops.length (withPending ops s) = .next t ∧ stage t = .idle := by
  induction h with
  | @idle s hidle => exact ⟨[], by simp, withPending [] s, rfl, stage_eq_idle.2 hidle⟩
  | @tick s _ ih =>
    obtain ⟨ops, hops, hrun⟩ := ih (by rwa [decodeStep_frame])
    refine ⟨.tick .unbounded :: ops, List.forall_mem_cons.2 ⟨.inl rfl, hops⟩, ?_⟩
    rwa [runSteps_cons (i := .tick .unbounded) hlive rfl (decodeStep_withPending _ ops s)]
  | @read s _ ih =>
    obtain ⟨ops, hops, hrun⟩ := ih (by rwa [readData_frame])
    refine ⟨.busRead 0 4 :: ops, List.forall_mem_cons.2 ⟨.inr rfl, hops⟩, ?_⟩
    rwa [runSteps_cons (i := .rdData) hlive rfl (readData_withPending ops s)]

/-- A bound on the reads that clear the buffer: three for each pixel ahead of the cursor, less the phases done. -/
def readBound (s : State) : Nat :=
  if s.outBuf = [] then 0 else 3 * (s.outBuf.length - s.ptr) + (3 - s.phase.val)

/-- A read moves the cursor by two pixels or more, or it moves the phase on and leaves the cursor where it is
(R172, R173, R175, R176). -/
theorem advance_nextPhase_cases (d : Depth) (phase : Fin 3) :
    2 ≤ advance d phase ∨ (advance d phase = 0 ∧ (nextPhase d phase).val = phase.val + 1) := by
  cases d with
  | bits4 => exact .inl (by simp [advance])
  | bits8 => exact .inl (by simp [advance])
  | bits15 => exact .inl (by simp [advance])
  | bits24 => revert phase; decide

/-- Each read of a buffer with pixels brings its end nearer (R177). -/
theorem readBound_readData {s : State} (hbuf : s.outBuf ≠ []) : readBound (readData s) < readBound s := by
  have hphase := s.phase.isLt
  rcases Nat.lt_or_ge (s.ptr + advance s.colorDepth s.phase) s.outBuf.length with hlt | hend
  · rw [readData_within hlt]
    simp only [readBound, if_neg hbuf]
    rcases advance_nextPhase_cases s.colorDepth s.phase with hmoved | ⟨hkept, hnext⟩ <;> omega
  · rw [readData_at_end hbuf hend]
    simp only [readBound, if_neg hbuf, if_true]
    omega

/-- An unbounded decode step of an active block takes a word from the queue (R154). -/
theorem inQueue_length_decodeStep {s : State} (hactive : s.decodingActive = true) (hbuf : s.outBuf = [])
    (hqueue : s.inQueue ≠ []) : (decodeStep .unbounded s).inQueue.length < s.inQueue.length := by
  obtain ⟨w, q, hq⟩ := List.exists_cons_of_ne_nil hqueue
  obtain ⟨fed, hfed, -⟩ := decodeLoop_queue q.length (feedWord w q s)
  have hlength : q.length = fed.length + (decodeLoop q.length (feedWord w q s)).inQueue.length := by
    rw [← List.length_append, ← hfed, feedWord_inQueue]
  rw [decodeStep_active hactive hbuf, settleActive_frame, tickRounds, hq, List.length_cons,
    decodeLoop_cons q.length hq hbuf]
  show (decodeLoop q.length (feedWord w q s)).inQueue.length < q.length + 1
  omega

/-- A block that expects no more words reads its pixels, then decodes: a read nears the end of the buffer and keeps
the queue, and a decode step shortens the queue. -/
theorem drainsToIdle {s : State} (hinv : BlockInv s) (hcount : s.parameterCount = 0) : DrainsToIdle s := by
  by_cases hbuf : s.outBuf = []
  · cases hactive : s.decodingActive with
    | true =>
      have hshorter := inQueue_length_decodeStep hactive hbuf (hinv.active_queue hactive)
      exact .tick (drainsToIdle (decodeStep_keeps_inv hinv) (by rwa [decodeStep_frame]))
    | false =>
      have hqueue : s.inQueue = [] := by_contra fun hne => by
        simp [hinv.queue_active hne (.inr hcount)] at hactive
      exact .idle (idle_iff.2 ⟨hcount, hqueue, hactive, hbuf⟩)
  · have hnearer := readBound_readData hbuf
    have hkept : (readData s).inQueue = s.inQueue := by rw [readData_frame]
    exact .read (drainsToIdle (readData_keeps_inv hinv) (by rwa [readData_frame]))
termination_by (s.inQueue.length, readBound s)
decreasing_by
  · exact .left _ _ hshorter
  · rw [hkept]
    exact .right _ hnearer

/-- Settles O50: a draining block expects no more words, so it drains, and the drain is a run. -/
theorem drainingReachesIdle : Obligations.DrainingReachesIdle :=
  fun _ hinv hlive hstage => (drainsToIdle hinv (stage_eq_draining hstage).2).exists_run hlive

end Sys2Proof.Machine

/-! SUPPORT. The decode step (42_decode_step.md): how many reads drain the macroblock it leaves in the Output Buffer
(R153), which words it feeds and what it writes (R154, R156), and how decode steps add up (R155). -/
namespace Sys2Proof.Machine

/-! ## How many reads drain the buffer -/

/-- What one read takes from the buffer, in thirds of a pixel: eight, four, two or one and a third pixels
(R172, R173, R175, R176). -/
def thirdsPerWord : Depth → Nat
  | .bits4 => 24
  | .bits8 => 12
  | .bits15 => 6
  | .bits24 => 4

theorem thirdsPerWord_pos (d : Depth) : 0 < thirdsPerWord d := by
  cases d <;> decide

/-- Cursor and phase together move by one word's share: a phase stands for four thirds of a pixel (R176). -/
theorem advance_nextPhase_thirds (d : Depth) (phase : Fin 3) :
    3 * advance d phase + 4 * (nextPhase d phase).val = 4 * phase.val + thirdsPerWord d := by
  cases d with
  | bits4 => exact Nat.add_comm _ _
  | bits8 => exact Nat.add_comm _ _
  | bits15 => exact Nat.add_comm _ _
  | bits24 => revert phase; decide

/-- The pixels not yet read are the shares of exactly `n` words. -/
def ReadsLeft (n : Nat) (s : State) : Prop :=
  3 * s.ptr + 4 * s.phase.val + thirdsPerWord s.colorDepth * n = 3 * s.outBuf.length

/-- The counts of R153 for a whole buffer. -/
theorem readsLeft_drainReads {s : State} (hptr : s.ptr = 0) (hphase : s.phase = 0) (hlength : s.outBuf.length % 8 = 0) :
    ReadsLeft (drainReads s.colorDepth s.outBuf.length) s := by
  rw [ReadsLeft, hptr, hphase]
  cases s.colorDepth <;> simp only [drainReads, thirdsPerWord, Fin.val_zero] <;> omega

theorem ReadsLeft.ne_zero {n : Nat} {s : State} (h : ReadsLeft n s) (hptr : s.ptr = 0) (hphase : s.phase = 0)
    (hbuf : s.outBuf ≠ []) : n ≠ 0 := by
  rintro rfl
  rw [ReadsLeft, hptr, hphase] at h
  exact hbuf (List.length_eq_zero_iff.1 (by simpa using h.symm))

/-- Where the next word leaves the cursor and the phase. -/
theorem ReadsLeft.advanced {n : Nat} {s : State} (h : ReadsLeft (n + 1) s) :
    3 * (s.ptr + advance s.colorDepth s.phase) + 4 * (nextPhase s.colorDepth s.phase).val +
      thirdsPerWord s.colorDepth * n = 3 * s.outBuf.length := by
  have hword := advance_nextPhase_thirds s.colorDepth s.phase
  rw [ReadsLeft, Nat.mul_succ] at h
  omega

/-- A read that leaves words moves on by one and keeps the pixels. -/
theorem ReadsLeft.kept {n : Nat} {s : State} (h : ReadsLeft (n + 2) s) :
    ReadsLeft (n + 1) (readData s) ∧ (readData s).outBuf = s.outBuf := by
  have hpos := thirdsPerWord_pos s.colorDepth
  have hnext := h.advanced
  have hwithin : s.ptr + advance s.colorDepth s.phase < s.outBuf.length := by
    rw [Nat.mul_succ] at hnext
    omega
  rw [readData_within hwithin]
  exact ⟨hnext, rfl⟩

/-- The read of the last word ends at the end of the buffer, with no phase over, and clears it (R177). -/
theorem ReadsLeft.cleared {s : State} (h : ReadsLeft 1 s) :
    (readData s).outBuf = [] ∧ (readData s).ptr = 0 ∧ (readData s).phase = 0 := by
  have hpos := thirdsPerWord_pos s.colorDepth
  have hphase := (nextPhase s.colorDepth s.phase).isLt
  have hnext := h.advanced
  rw [Nat.mul_zero] at hnext
  have hbuf : s.outBuf ≠ [] := fun hnil => by
    simp only [ReadsLeft, hnil, List.length_nil] at h
    omega
  rw [readData_at_end hbuf (by omega)]
  exact ⟨rfl, rfl, rfl⟩

theorem readN_succ {s : State} (n : Nat) (hlive : Live s) : readN (n + 1) s = readN n (readData s) := by
  rw [readN, exec_live hlive]
  rfl

theorem live_readData {s : State} (hlive : Live s) : Live (readData s) := by
  rwa [readData_frame]

/-- Fewer reads than there are words left keep the pixels. -/
theorem ReadsLeft.readN_kept {m n : Nat} {s : State} (h : ReadsLeft n s) (hlive : Live s) (hm : m < n) :
    ∃ u, readN m s = .next u ∧ u.outBuf = s.outBuf := by
  induction m generalizing n s with
  | zero => exact ⟨s, rfl, rfl⟩
  | succ m ih =>
    obtain ⟨n, rfl⟩ := Nat.exists_eq_add_of_le' (show 2 ≤ n by omega)
    obtain ⟨hleft, hbuf⟩ := h.kept
    rw [readN_succ m hlive, ← hbuf]
    exact ih hleft (live_readData hlive) (by omega)

/-- As many reads as there are words left clear the buffer. -/
theorem ReadsLeft.readN_cleared {n : Nat} {s : State} (h : ReadsLeft (n + 1) s) (hlive : Live s) :
    ∃ t, readN (n + 1) s = .next t ∧ t.outBuf = [] ∧ t.ptr = 0 ∧ t.phase = 0 := by
  induction n generalizing s with
  | zero => exact ⟨readData s, readN_succ 0 hlive, h.cleared⟩
  | succ n ih =>
    rw [readN_succ (n + 1) hlive]
    exact ih h.kept.1 (live_readData hlive)

/-- Settles O31: every read takes one word's share of the buffer, and the pixels of a whole buffer are the shares of
as many words as R153 says. -/
theorem readsDrainBuffer : Obligations.ReadsDrainBuffer := by
  intro s hlive hbuf hptr hphase hlength
  have hleft := readsLeft_drainReads hptr hphase hlength
  obtain ⟨n, hn⟩ := Nat.exists_eq_succ_of_ne_zero (hleft.ne_zero hptr hphase hbuf)
  refine ⟨?_, fun m hm => hleft.readN_kept hlive hm⟩
  rw [hn] at hleft ⊢
  exact hleft.readN_cleared hlive

/-! ## The decode loop -/

/-- As many rounds as the queue has words empty the queue or fill the buffer (R154). -/
theorem decodeLoop_length_stops (s : State) :
    (decodeLoop s.inQueue.length s).inQueue = [] ∨ (decodeLoop s.inQueue.length s).outBuf ≠ [] := by
  obtain ⟨fed, hfed, -, hall | hstop⟩ := decodeLoop_queue s.inQueue.length s
  · have hlength := congrArg List.length hfed
    rw [List.length_append] at hlength
    exact .inl (List.length_eq_zero_iff.1 (by omega))
  · exact hstop

/-- Rounds past the queue's length do nothing. -/
theorem decodeLoop_of_length_le {k : Nat} {s : State} (h : s.inQueue.length ≤ k) :
    decodeLoop k s = decodeLoop s.inQueue.length s := by
  obtain ⟨j, rfl⟩ := Nat.exists_eq_add_of_le h
  rw [decodeLoop_add]
  rcases decodeLoop_length_stops s with hnil | hfull
  · exact decodeLoop_nil j hnil
  · exact decodeLoop_full j hfull

/-- From an empty buffer and a queue with words, a loop of some rounds feeds a word. -/
theorem decodeLoop_feeds {n : Nat} {s : State} (hn : n ≠ 0) (hbuf : s.outBuf = []) (hqueue : s.inQueue ≠ []) :
    ∃ fed, fed ≠ [] ∧ s.inQueue = fed ++ (decodeLoop n s).inQueue ∧ fed.length ≤ n ∧
      (fed.length = n ∨ (decodeLoop n s).inQueue = [] ∨ (decodeLoop n s).outBuf ≠ []) := by
  obtain ⟨n, rfl⟩ := Nat.exists_eq_succ_of_ne_zero hn
  obtain ⟨w, q, hq⟩ := List.exists_cons_of_ne_nil hqueue
  obtain ⟨fed, hfed, hle, hstop⟩ := decodeLoop_queue n (feedWord w q s)
  rw [feedWord_inQueue] at hfed
  rw [decodeLoop_cons n hq hbuf, hq]
  refine ⟨w :: fed, List.cons_ne_nil w fed, congrArg (w :: ·) hfed, Nat.succ_le_succ hle, ?_⟩
  exact hstop.imp_left (congrArg Nat.succ)

theorem decodeLoop_decodingActive (n : Nat) (s : State) : (decodeLoop n s).decodingActive = s.decodingActive := by
  rw [decodeLoop_frame]

/-! ## The decode step -/

/-- Settles O8: the decoder rejects a budget of no words. -/
theorem tickOfNoWordsRefused : Obligations.TickOfNoWordsRefused := by
  intro s rest hlive hpending
  rw [step_live hlive, applyPending, hpending]
  rfl

/-- Settles O33: the guard of the decode step. -/
theorem tickWithoutWork : Obligations.TickWithoutWork :=
  fun _ _ hlive hnoop => (exec_live hlive).trans (congrArg _ (decodeStep_noop hnoop))

/-- Settles O34: one round of the loop feeds the head word into an empty buffer. -/
theorem tickFeedsHeadWord : Obligations.TickFeedsHeadWord := by
  intro s w q hlive hactive hbuf hqueue
  have hround : decodeLoop 1 s = feedWord w q s := decodeLoop_cons 0 hqueue hbuf
  rw [exec_live hlive, effect, decodeStep_active hactive hbuf, tickRounds, hround, settleActive_frame]
  simp [feedWord, hactive, hbuf]

/-- A decode step goes on where the loop of an earlier one stopped. -/
theorem decodeStep_settleActive (k : Nat) {s : State} (hactive : s.decodingActive = true) :
    decodeStep (.atMost k) (settleActive s) = settleActive (decodeLoop k s) := by
  by_cases hqueue : s.inQueue = []
  · rw [decodeLoop_nil k hqueue]
    exact decodeStep_noop (.inl (by simp [settleActive, hqueue]))
  · have hsettled : settleActive s = s := if_neg hqueue
    rw [hsettled]
    by_cases hbuf : s.outBuf = []
    · exact decodeStep_active hactive hbuf
    · rw [decodeLoop_full k hbuf, hsettled]
      exact decodeStep_noop (.inr hbuf)

theorem decodeStep_add (j k : Nat) (s : State) :
    decodeStep (.atMost (j + k)) s = decodeStep (.atMost k) (decodeStep (.atMost j) s) := by
  by_cases hnoop : s.decodingActive = false ∨ s.outBuf ≠ []
  · rw [decodeStep_noop hnoop, decodeStep_noop hnoop, decodeStep_noop hnoop]
  · obtain ⟨hactive, hbuf⟩ : s.decodingActive = true ∧ s.outBuf = [] := by simpa using hnoop
    rw [decodeStep_active hactive hbuf, decodeStep_active hactive hbuf, tickRounds, tickRounds, decodeLoop_add,
      decodeStep_settleActive k ((decodeLoop_decodingActive j s).trans hactive)]

/-- Settles O36: decode steps add up, and the first of them leaves a live state. -/
theorem tickSplits : Obligations.TickSplits := by
  intro s j k hlive _ _
  have hlive' : Live (decodeStep (.atMost j) s) := by rwa [decodeStep_frame]
  refine ⟨decodeStep (.atMost j) s, exec_live hlive, ?_⟩
  rw [exec_live hlive, exec_live hlive']
  exact congrArg _ (decodeStep_add j k s)

/-- Settles O37: an unbounded step has as many rounds as the queue has words, and more rounds do nothing. -/
theorem unboundedTick : Obligations.UnboundedTick := by
  intro s k hk
  have hstep : decodeStep .unbounded s = decodeStep (.atMost k) s := by
    simp only [decodeStep, tickRounds, decodeLoop_of_length_le hk]
  rw [exec_eq_perform, exec_eq_perform]
  exact congrArg _ hstep

/-- A working decode step stops at an empty queue, at pixels, or at its budget (R154). -/
theorem decodeLoop_tickRounds_stops {k : TickBudget} {s : State} {m : Nat}
    (h : m = tickRounds k s ∨
      (decodeLoop (tickRounds k s) s).inQueue = [] ∨ (decodeLoop (tickRounds k s) s).outBuf ≠ []) :
    (decodeLoop (tickRounds k s) s).inQueue = [] ∨ (decodeLoop (tickRounds k s) s).outBuf ≠ [] ∨ k = .atMost m := by
  cases k with
  | unbounded => exact (decodeLoop_length_stops s).imp_right .inl
  | atMost n =>
    rcases h with hall | hnil | hfull
    · exact .inr (.inr (congrArg _ hall.symm))
    · exact .inl hnil
    · exact .inr (.inl hfull)

/-- Settles O35: the words fed are those of the loop, and the active flag then says if words are left. -/
theorem tickDrainsQueue : Obligations.TickDrainsQueue := by
  intro s k hlive hactive hbuf hqueue hk
  obtain ⟨fed, hne, hfed, hle, hstop⟩ := decodeLoop_feeds (tickRounds_ne_zero hqueue hk) hbuf hqueue
  have hstep : decodeStep k s = settleActive (decodeLoop (tickRounds k s) s) := decodeStep_active hactive hbuf
  have hframe := decodeStep_frame k s
  rw [settleActive_frame, decodeLoop_decodingActive, hactive] at hstep
  rw [hstep] at hframe
  refine ⟨_, fed, (exec_live hlive).trans (congrArg _ hstep), hne, hfed, ?_, decodeLoop_tickRounds_stops hstop,
    decodeLoop_outBuf _ s hbuf, by simp, hframe⟩
  rintro n rfl
  exact hle

end Sys2Proof.Machine

/-! SUPPORT. The output packer (43_output_packer.md): the fields of the packed word at each depth (R172 to R176), the
end of the Output Buffer (R177), and what has no part in a packing (R179) or cannot change during it (R180). -/
namespace Sys2Proof.Machine

/-! ## A read of a buffer with pixels -/

/-- What a read moves the cursor by and the phase to decides its next state (R171, R177). -/
theorem exec_rdData_packed {s : State} {n : Nat} {phase : Fin 3} (hlive : Live s) (hbuf : s.outBuf ≠ [])
    (hn : advance s.colorDepth s.phase = n) (hphase : nextPhase s.colorDepth s.phase = phase) :
    exec .rdData s = .next
      (if s.outBuf.length ≤ s.ptr + n
       then { s with outBuf := [], ptr := 0, phase := 0, lastRead := some (packWord s).1, draws := s.draws + 1 }
       else { s with ptr := s.ptr + n, phase := phase, lastRead := some (packWord s).1, draws := s.draws + 1 }) := by
  subst hn hphase
  rw [exec_live hlive, effect]
  split
  next hend => rw [readData_at_end hbuf hend]
  next hmore => rw [readData_within (Nat.lt_of_not_le hmore)]

/-- A pixel of the buffer (R170). -/
theorem px_of_getElem? {s : State} {i : Nat} {q : Pixel} (h : s.outBuf[i]? = some q) : px s i = q := by
  simp [px, h]

/-! ## Words packed from fields of one width -/

/-- Fields `f 0` to `f (n - 1)` of `m` bits each, least significant first. -/
def packFields {m : Nat} (f : Nat → BitVec m) (n : Nat) : Word :=
  (List.range n).foldl (fun r i => r ||| (f i).setWidth 32 <<< (m * i)) 0

theorem packFields_succ {m : Nat} (f : Nat → BitVec m) (n : Nat) :
    packFields f (n + 1) = packFields f n ||| (f n).setWidth 32 <<< (m * n) := by
  simp [packFields, List.range_succ]

/-- Nothing is packed above the last field. -/
theorem packFields_getLsbD_of_le {m n k : Nat} (f : Nat → BitVec m) (hk : m * n ≤ k) :
    (packFields f n).getLsbD k = false := by
  induction n with
  | zero => exact BitVec.getLsbD_zero
  | succ n ih =>
    rw [Nat.mul_succ] at hk
    rw [packFields_succ, BitVec.getLsbD_or, ih (by omega), BitVec.getLsbD_shiftLeft, BitVec.getLsbD_setWidth,
      BitVec.getLsbD_of_ge (f n) _ (by omega)]
    simp

/-- The fields of a packed word are the fields packed, if the word has room for them. -/
theorem packFields_getLsbD {m n i j : Nat} (f : Nat → BitVec m) (hroom : m * n ≤ 32) (hi : i < n) (hj : j < m) :
    (packFields f n).getLsbD (m * i + j) = (f i).getLsbD j := by
  induction n with
  | zero => omega
  | succ n ih =>
    rw [Nat.mul_succ] at hroom
    rw [packFields_succ, BitVec.getLsbD_or, BitVec.getLsbD_shiftLeft, BitVec.getLsbD_setWidth]
    rcases Nat.lt_or_eq_of_le (Nat.le_of_lt_succ hi) with hlt | rfl
    · have hbelow : m * i + j < m * n := by
        calc m * i + j < m * (i + 1) := by rw [Nat.mul_succ]; omega
          _ ≤ m * n := Nat.mul_le_mul_left m hlt
      simp [ih (by omega) hlt, hbelow]
    · rw [packFields_getLsbD_of_le f (Nat.le_add_right _ _)]
      have hword : m * i + j < 32 := by omega
      have hrest : j < 32 := by omega
      simp [hword, hrest]

theorem extractLsb'_packFields {m n i : Nat} (f : Nat → BitVec m) (hroom : m * n ≤ 32) (hi : i < n) :
    (packFields f n).extractLsb' (m * i) m = f i := by
  refine BitVec.eq_of_getLsbD_eq fun j hj => ?_
  rw [BitVec.getLsbD_extractLsb', packFields_getLsbD f hroom hi hj, decide_eq_true hj, Bool.true_and]

/-! ## 4-bit and 8-bit depth -/

theorem packWord_bits4 {s : State} (hdepth : s.colorDepth = .bits4) :
    (packWord s).1 = packFields (fun i => (px s (s.ptr + i)).extractLsb' 4 4) 8 := by
  rw [packWord, hdepth]; rfl

theorem packWord_bits8 {s : State} (hdepth : s.colorDepth = .bits8) :
    (packWord s).1 = packFields (fun i => (px s (s.ptr + i)).extractLsb' 0 8) 4 := by
  rw [packWord, hdepth]; rfl

/-- Settles O25: the word is packed from eight nibbles. -/
theorem fourBitRead : Obligations.FourBitRead := by
  intro s hlive hbuf hdepth
  refine ⟨(packWord s).1, exec_rdData_packed hlive hbuf (by rw [hdepth]; rfl) (by rw [hdepth]; rfl), ?_⟩
  intro i hi q hq
  rw [packWord_bits4 hdepth, extractLsb'_packFields _ (by decide) hi, px_of_getElem? hq]

/-- Settles O26: the word is packed from four bytes. -/
theorem eightBitRead : Obligations.EightBitRead := by
  intro s hlive hbuf hdepth
  refine ⟨(packWord s).1, exec_rdData_packed hlive hbuf (by rw [hdepth]; rfl) (by rw [hdepth]; rfl), ?_⟩
  intro i hi q hq
  rw [packWord_bits8 hdepth, extractLsb'_packFields _ (by decide) hi, px_of_getElem? hq]

/-! ## 15-bit depth -/

theorem packWord_bits15 {s : State} (hdepth : s.colorDepth = .bits15) :
    (packWord s).1 = packFields (fun i => half15 s (px s (s.ptr + i))) 2 := by
  simp [packWord, hdepth, pack15, packFields, List.range_succ]

/-- A field of a field is a field of the whole. -/
theorem extractLsb'_of_field {w m k : Nat} {v : BitVec w} {x : BitVec m} (h : v.extractLsb' k m = x) {a n : Nat}
    (ha : a + n ≤ m) : v.extractLsb' (k + a) n = x.extractLsb' a n := by
  refine BitVec.eq_of_getLsbD_eq fun j hj => ?_
  have hja : a + j < m := by omega
  simp [← h, hj, hja, Nat.add_assoc]

/-- Bit 15 of a half-word is the flag, and `PACK15` gives the bits below (R174). -/
theorem half15_fields (s : State) (p : Pixel) :
    (half15 s p).extractLsb' 15 1 = BitVec.ofBool s.outputSetBit15 ∧
    (half15 s p).extractLsb' 0 15 = pack15Bits s.params.pack15 p :=
  ⟨BitVec.extractLsb'_append_eq_left, BitVec.extractLsb'_append_eq_right⟩

/-- The default of `PACK15` keeps the top five bits of each channel, red lowest (R174). -/
theorem rgb555_fields (p : Pixel) :
    (rgb555 p).extractLsb' 0 5 = p.extractLsb' 3 5 ∧ (rgb555 p).extractLsb' 5 5 = p.extractLsb' 11 5 ∧
    (rgb555 p).extractLsb' 10 5 = p.extractLsb' 19 5 := by
  refine ⟨?_, ?_, ?_⟩ <;>
    simp (disch := decide) only [rgb555, BitVec.extractLsb'_append_eq_of_le, BitVec.extractLsb'_append_eq_of_add_le] <;>
    simp

/-- Settles O27: each half of the word is the flag over the bits of `PACK15`. -/
theorem fifteenBitRead : Obligations.FifteenBitRead := by
  intro s hlive hbuf hdepth
  have hhalf (i : Nat) (hi : i < 2) : (packWord s).1.extractLsb' (16 * i) 16 = half15 s (px s (s.ptr + i)) := by
    rw [packWord_bits15 hdepth, extractLsb'_packFields _ (by decide) hi]
  have hflag (i : Nat) (hi : i < 2) : bitOf (packWord s).1 (16 * i + 15) = s.outputSetBit15 :=
    bitOf_eq_of_field ((extractLsb'_of_field (hhalf i hi) (by decide)).trans (half15_fields s _).1)
  refine ⟨(packWord s).1, exec_rdData_packed hlive hbuf (by rw [hdepth]; rfl) (by rw [hdepth]; rfl),
    hflag 0 (by decide), hflag 1 (by decide), ?_⟩
  intro i hi q hq
  have hbits : (packWord s).1.extractLsb' (16 * i) 15 = pack15Bits s.params.pack15 q := by
    rw [← px_of_getElem? hq, ← (half15_fields s _).2]
    exact extractLsb'_of_field (hhalf i hi) (a := 0) (by decide)
  refine ⟨hbits, fun hpack => ?_⟩
  rw [hpack, pack15Bits] at hbits
  obtain ⟨hred, hgreen, hblue⟩ := rgb555_fields q
  exact ⟨(extractLsb'_of_field hbits (by decide)).trans hred, (extractLsb'_of_field hbits (by decide)).trans hgreen,
    (extractLsb'_of_field hbits (by decide)).trans hblue⟩

/-! ## 24-bit depth -/

/-- The fields of the words that `packWord_bits24` makes of pixel bytes. -/
theorem wordOfBytes_pixelByte_fields (p q : Pixel) :
    ((wordOfBytes (pixelByte p 0) (pixelByte p 1) (pixelByte p 2) (pixelByte q 0)).extractLsb' 0 24 = p ∧
      (wordOfBytes (pixelByte p 0) (pixelByte p 1) (pixelByte p 2) (pixelByte q 0)).extractLsb' 24 8 =
        q.extractLsb' 0 8) ∧
    ((wordOfBytes (pixelByte p 1) (pixelByte p 2) (pixelByte q 0) (pixelByte q 1)).extractLsb' 0 16 =
        p.extractLsb' 8 16 ∧
      (wordOfBytes (pixelByte p 1) (pixelByte p 2) (pixelByte q 0) (pixelByte q 1)).extractLsb' 16 16 =
        q.extractLsb' 0 16) ∧
    ((wordOfBytes (pixelByte p 2) (pixelByte q 0) (pixelByte q 1) (pixelByte q 2)).extractLsb' 0 8 =
        p.extractLsb' 16 8 ∧
      (wordOfBytes (pixelByte p 2) (pixelByte q 0) (pixelByte q 1) (pixelByte q 2)).extractLsb' 8 24 = q) := by
  refine ⟨⟨?_, ?_⟩, ⟨?_, ?_⟩, ⟨?_, ?_⟩⟩ <;>
  · refine BitVec.eq_of_getLsbD_eq fun i hi => ?_
    simp only [wordOfBytes, pixelByte, BitVec.getLsbD_append, BitVec.getLsbD_extractLsb']
    interval_cases i <;> simp

/-- The two parts of the word of a 24-bit read at each phase (R176). -/
theorem packWord_bits24_fields {s : State} (hdepth : s.colorDepth = .bits24) :
    (s.phase = 0 → (packWord s).1.extractLsb' 0 24 = px s s.ptr ∧
      (packWord s).1.extractLsb' 24 8 = (px s (s.ptr + 1)).extractLsb' 0 8) ∧
    (s.phase = 1 → (packWord s).1.extractLsb' 0 16 = (px s (s.ptr + 1)).extractLsb' 8 16 ∧
      (packWord s).1.extractLsb' 16 16 = (px s (s.ptr + 2)).extractLsb' 0 16) ∧
    (s.phase = 2 → (packWord s).1.extractLsb' 0 8 = (px s (s.ptr + 2)).extractLsb' 16 8 ∧
      (packWord s).1.extractLsb' 8 24 = px s (s.ptr + 3)) := by
  obtain ⟨hword0, hword1, hword2⟩ := packWord_bits24 hdepth
  refine ⟨fun h => ?_, fun h => ?_, fun h => ?_⟩
  · rw [hword0 h]
    exact (wordOfBytes_pixelByte_fields _ _).1
  · rw [hword1 h]
    exact (wordOfBytes_pixelByte_fields _ _).2.1
  · rw [hword2 h]
    exact (wordOfBytes_pixelByte_fields _ _).2.2

/-- Settles O28: the word is packed from the pixels at the cursor, and only phase 2 moves it. -/
theorem twentyFourBitReads : Obligations.TwentyFourBitReads := by
  intro s hlive hbuf hdepth
  obtain ⟨hphase0, hphase1, hphase2⟩ := packWord_bits24_fields hdepth
  refine ⟨(packWord s).1, fun h => ⟨?_, fun q hq => ?_, fun q hq => ?_⟩,
    fun h => ⟨?_, fun q hq => ?_, fun q hq => ?_⟩, fun h => ⟨?_, fun q hq => ?_, fun q hq => ?_⟩⟩
  · exact exec_rdData_packed hlive hbuf (n := 0) (by rw [hdepth, h]; rfl) (by rw [hdepth, h]; rfl)
  · rw [(hphase0 h).1, px_of_getElem? hq]
  · rw [(hphase0 h).2, px_of_getElem? hq]
  · exact exec_rdData_packed hlive hbuf (n := 0) (by rw [hdepth, h]; rfl) (by rw [hdepth, h]; rfl)
  · rw [(hphase1 h).1, px_of_getElem? hq]
  · rw [(hphase1 h).2, px_of_getElem? hq]
  · exact exec_rdData_packed hlive hbuf (by rw [hdepth, h]; rfl) (by rw [hdepth, h]; rfl)
  · rw [(hphase2 h).1, px_of_getElem? hq]
  · rw [(hphase2 h).2, px_of_getElem? hq]

/-! ## The end of the Output Buffer -/

/-- Settles O30: a read at the end leaves an empty buffer, so only the queue, the active flag and the count can keep
the block busy. -/
theorem readEndsBuffer : Obligations.ReadEndsBuffer := by
  intro s hlive hbuf
  refine ⟨readData s, exec_live hlive, fun hend => ?_, fun hmore => ?_⟩
  · rw [readData_at_end hbuf hend]
    refine ⟨rfl, rfl, rfl, rfl, rfl, ?_⟩
    rw [← Idle, idle_iff]
    tauto
  · rw [readData_within hmore]
    exact ⟨rfl, rfl⟩

/-! ## What stays while pixels remain -/

/-- With pixels in the buffer before and after it, no operation writes the depth or the bit-15 flag: a command needs
an idle block, and a reset clears the buffer (R175, R180). -/
theorem opEffect_keeps_depth {s t : State} {op : HostOp} (h : OpEffect s op t) (hs : s.outBuf ≠ [])
    (ht : t.outBuf ≠ []) : t.colorDepth = s.colorDepth ∧ t.outputSetBit15 = s.outputSetBit15 := by
  cases h with
  | command w hidle =>
    obtain ⟨-, -, -, hempty⟩ := idle_iff.1 hidle
    exact absurd hempty hs
  | parameter w hbusy =>
    unfold parameterWrite
    rcases acceptParameter_cases (routeWord s.command w) s with ⟨-, he⟩ | ⟨-, -, -, he⟩ | ⟨-, -, he⟩ <;> rw [he]
    · exact ⟨rfl, rfl⟩
    · exact ⟨rfl, rfl⟩
    · obtain ⟨-, -, -, -, -, -, -, hdepth, hbit15⟩ :=
        routeWord_frame s.command w { s with parameterCount := s.parameterCount - 1 }
      exact ⟨hdepth, hbit15⟩
  | control w =>
    cases hreset : bitOf w 31 with
    | false => exact ⟨rfl, rfl⟩
    | true =>
      rw [hreset] at ht
      exact absurd rfl ht
  | read => rw [readData_frame]; exact ⟨rfl, rfl⟩
  | status => exact ⟨rfl, rfl⟩
  | tick k => rw [decodeStep_frame]; exact ⟨rfl, rfl⟩
  | notAdmitted op => exact ⟨rfl, rfl⟩

/-- Settles O44: the operation of the step keeps both. -/
theorem depthFixedWhilePixelsRemain : Obligations.DepthFixedWhilePixelsRemain := by
  intro s t hstep hs ht
  rcases step_opEffect hstep with rfl | ⟨op, rest, -, hop⟩
  · exact ⟨rfl, rfl⟩
  · exact opEffect_keeps_depth (s := withPending rest s) hop hs ht

/-! ## What a packing does not read -/

theorem packWord_outputSigned (b : Bool) (s : State) :
    (packWord { s with outputSigned := b }).1 = (packWord s).1 := by
  simp only [packWord]
  cases s.colorDepth with
  | bits4 => rfl
  | bits8 => rfl
  | bits15 => rfl
  | bits24 =>
    simp only [pack24]
    split <;> rfl

/-- A read leaves the same state but for the flag, whatever the flag (R179). -/
theorem readData_outputSigned (b : Bool) (s : State) :
    readData { s with outputSigned := b } = { readData s with outputSigned := b } := by
  by_cases hbuf : s.outBuf = []
  · rw [readData_empty hbuf, readData_empty (s := { s with outputSigned := b }) hbuf]; rfl
  · rcases Nat.lt_or_ge (s.ptr + advance s.colorDepth s.phase) s.outBuf.length with h | h
    · rw [readData_within h, readData_within (s := { s with outputSigned := b }) h, packWord_outputSigned]
    · rw [readData_at_end hbuf h, readData_at_end (s := { s with outputSigned := b }) hbuf h, packWord_outputSigned]

/-- Settles O32: a read gives the flag no part. -/
theorem signedFlagUnusedByPacker : Obligations.SignedFlagUnusedByPacker := by
  intro s b hlive
  have hlive' : Live { s with outputSigned := b } := hlive
  exact ⟨readData s, exec_live hlive, (exec_live hlive').trans (congrArg _ (readData_outputSigned b s))⟩

end Sys2Proof.Machine

/-! SUPPORT. Reset and power-on (70_reset_and_hazards.md R230 to R233): a reset block, as power-on leaves it, is one
that a full reset keeps. -/
namespace Sys2Proof.Machine

/-! ## Power-on -/

/-- Power-on leaves the values of a full reset (R233). -/
theorem fullReset_powerOn (p : Params) : fullReset (State.powerOn p) = State.powerOn p := rfl

theorem powerOn_idle (p : Params) : Idle (State.powerOn p) := idle_iff.2 ⟨rfl, rfl, rfl, rfl⟩

/-- At power-on `enableDataIn` is clear, so the Status word is that of a full reset with no words asked for (R230). -/
theorem statusWord_powerOn {p : Params} (hvalid : p.Valid) : statusWord (State.powerOn p) = 0x80040000 := by
  have h := statusWord_fullReset (s := State.powerOn p) hvalid
  rwa [fullReset_powerOn] at h

/-- Settles O1: the fields are those of the definition, the flags those of an idle block with an empty queue and no
pixels. -/
theorem powerOnState : Obligations.PowerOnState := by
  intro p hvalid
  obtain ⟨hfull, hrequest⟩ := inputFlags_of_queue_nil (s := State.powerOn p) hvalid rfl (.inl rfl)
  exact ⟨State.powerOn p, rfl, rfl, rfl, rfl, rfl, rfl, rfl, rfl, rfl, rfl, rfl, rfl, rfl, rfl, rfl, rfl, rfl, rfl,
    rfl, hfull, powerOn_idle p, hrequest, rfl, statusWord_powerOn hvalid⟩

/-! ## Two resets in a row -/

/-- Both writes load the same enables, and a full reset keeps what a full reset left (R232). -/
theorem writeControl_reset_idem (enIn enOut : Bool) (s : State) :
    writeControl true enIn enOut (writeControl true enIn enOut s) = writeControl true enIn enOut s := rfl

/-- Settles O40: the first write leaves a live block, which the second one keeps. -/
theorem resetIsIdempotent : Obligations.ResetIsIdempotent := by
  intro s enIn enOut ig ig' hlive
  have hlive' : Live (writeControl true enIn enOut s) := hlive
  exact ⟨writeControl true enIn enOut s, exec_live hlive,
    (exec_live hlive').trans (congrArg _ (writeControl_reset_idem enIn enOut s)),
    writeControl_tables true enIn enOut s⟩

end Sys2Proof.Machine
